-- ==== Sys2Proof/Word.lean ====
section
/-!
DEFINITION. The widths of the block (00_scope.md R5): the 32-bit phase word and the 8-bit sample. Everything is
unsigned (R11) and bit 0 is the least significant bit (R10), which is how BitVec counts.
-/

namespace Sys2Proof

/-- A phase, a tuning word or a phase offset: an unsigned 32-bit number (R5, W = 32). -/
abbrev Word := BitVec 32

/-- A sample, a group or a byte of the output stream: an unsigned 8-bit number (R5, SW = 8). -/
abbrev Byte := BitVec 8

/-- The step-select word F-SEL: rst, HALT, OUTV, out_err, out_ready, with rst as bit 4 (R73). -/
abbrev SelWord := BitVec 5

end Sys2Proof
end

