-- ==== Sys2Proof/Config.lean ====
section
/-!
DEFINITION. What is fixed for a block (the configuration record of 00_scope.md R6, the two normative configurations of
R8), what the host hands to CONFIGURE (R90), what the environment puts on the pins (R72), and the free values: choices
the spec leaves open, as constants without a body.
-/

namespace Sys2Proof

/-- One phase accumulator's constants: its tuning word and its phase after reset (R6, R31, R35). -/
structure AccCfg where
  ftw       : Word
  phaseInit : Word
deriving DecidableEq, Repr, Inhabited

/-- One output channel's constants: the accumulator it reads (SRC), its offset (DELTA) and its bit position in the
group (POS) (R6). -/
structure ChanCfg where
  src   : Nat
  delta : Word
  pos   : Nat
deriving DecidableEq, Repr, Inhabited

/-- The configuration record (R6). NACC and NCH are the lengths of the two lists. -/
structure Cfg where
  accs   : List AccCfg
  chans  : List ChanCfg
  nsub   : Nat
  stride : Nat
deriving DecidableEq, Repr, Inhabited

/-- NACC, the number of phase accumulators (R6). -/
def Cfg.nacc (c : Cfg) : Nat := c.accs.length

/-- NCH, the number of output channels (R6). -/
def Cfg.nch (c : Cfg) : Nat := c.chans.length

/-- CFG_A, Variant A: one accumulator, the reference channel at bit 0, one tick per byte (R8). -/
def cfgA (ftw : Word) : Cfg :=
  { accs := [⟨ftw, 0⟩], chans := [⟨0, 0, 0⟩], nsub := 1, stride := 2 }

/-- CFG_B, Variant B: reference channel at bit 0 and measurement channel at bit 1 of one accumulator, two ticks per
byte (R8). -/
def cfgB (ftw delta : Word) : Cfg :=
  { accs := [⟨ftw, 0⟩], chans := [⟨0, 0, 0⟩, ⟨0, delta, 1⟩], nsub := 2, stride := 2 }

/-- CFG_B in the alternative reading STRIDE = 4, which the spec keeps available (R6, R70, D6). -/
def cfgBStride4 (ftw delta : Word) : Cfg := { cfgB ftw delta with stride := 4 }

/-- The tuning word of 2.0e6 at 24e6 (R63, R92). -/
def ftw2M0At24M : Word := 0x15555555#32

/-- The tuning word of 1.97e6 at 48e6 (R63, R92). -/
def ftw1M97At48M : Word := 0x0A81B4E8#32

/-- A real-valued operand of CONFIGURE: a finite number or something that is no finite real (R90: "not a finite real
number"). DESIGN CHOICE (log entry 5): the finite numbers are the rationals, on which the exact arithmetic of R92
computes; safe. -/
inductive RealInput where
  | finite (q : Rat)
  | notFinite
deriving DecidableEq, Repr, Inhabited

/-- What the host gives CONFIGURE for one accumulator (R90, R183). -/
structure AccRequest where
  referenceFrequency : RealInput
  phaseInit          : Int
deriving DecidableEq, Repr, Inhabited

/-- What the host gives CONFIGURE for one channel (R6, R183): plain integers, which CONFIGURE checks. -/
structure ChanRequest where
  src   : Int
  delta : Int
  pos   : Int
deriving DecidableEq, Repr, Inhabited

/-- The operands of CONFIGURE (R90): sample_rate, reference_frequency[i] and the rest of the configuration, unchecked. -/
structure StartupRequest where
  sampleRate : RealInput
  accs       : List AccRequest
  chans      : List ChanRequest
  nsub       : Int
  stride     : Int
deriving DecidableEq, Repr, Inhabited

/-- The request whose every operand is zero (or empty). -/
def StartupRequest.zero : StartupRequest :=
  { sampleRate := .finite 0, accs := [], chans := [], nsub := 0, stride := 0 }

/-- The configuration value that a ConfigurationError names (R90, R151). -/
inductive ConfigField where
  | sampleRate | referenceFrequency | nacc | nch | nsub | stride | phaseInit | delta | src | pos
deriving DecidableEq, Repr, Inhabited

/-- The two error kinds (R150). -/
inductive ErrorKind where
  | configurationError (what : ConfigField)
  | ioError
deriving DecidableEq, Repr

/-- The input pins as sampled at one rising edge of clk (R72). -/
structure Pins where
  rst      : Bool
  outErr   : Bool
  outReady : Bool
deriving DecidableEq, Repr, Inhabited

/-- The output pins (R72). -/
structure OutPins where
  outData  : Byte
  outValid : Bool
  halted   : Bool
deriving DecidableEq, Repr, Inhabited

/-- The sink's answer to one emit attempt (R48). -/
inductive SinkAnswer where
  | accept | busy | error
deriving DecidableEq, Repr, Inhabited

/-- One thing the environment does to the block: a clock edge with its input pins (R72), or the host's CONFIGURE
(R90, R182). -/
inductive EnvEvent where
  | edge (p : Pins)
  | configure (r : StartupRequest)
deriving DecidableEq, Repr, Inhabited

/-- FREE VALUE (log entry 2): what the environment does at its n-th event where nothing is scheduled. The spec
constrains no answer of the environment (R48, U4), so nothing is known of it. Safe for one block. DESIGN CHOICE (log
entries 2 and 23): it is one function for every block, where the spec leaves the environments of blocks side by side
independent (R48, R162), so two blocks with nothing scheduled and an equal count of events take the same free event.
UNSAFE for a claim that relates two blocks through free events; a claim about several blocks takes their schedules. -/
opaque Config.freeEvent : Nat → EnvEvent

/-- FREE VALUE (log entry 6): which of several bad configuration values a ConfigurationError names (R90: "the
offending field"). Used only as a position in the list of the bad ones. Safe. -/
opaque Config.offenderIndex : List ConfigField → Nat

end Sys2Proof
end

