-- ==== Sys2Proof/Syntax.lean ====
section
/-!
DEFINITION. The operations of spec/opcode_table.json, one constructor per row (30_encoding.md R74): six steps, six
micro-operations, the startup operation and seven data formats. The block has no instruction set (R60); these names are
the spec's own (D16).
-/

namespace Sys2Proof

/-- The rows of the table. -/
inductive Instr where
  /-- RESET, R139: put every element of state at its reset value. -/
  | reset
  /-- HOLD, R136: halted, nothing happens. -/
  | hold
  /-- TICK, R131: one tick of the engine. -/
  | tick
  /-- FAIL, R135: the write is refused, IOError. -/
  | fail
  /-- EMIT, R133: deliver the completed sample. -/
  | emit
  /-- STALL, R134: the sink is not ready. -/
  | stall
  /-- ACC i, R93: advance accumulator i. -/
  | acc (i : Nat)
  /-- EFFPHASE j, R97: the effective phase of channel j. -/
  | effphase (j : Nat)
  /-- DECIDE j, R110: the decision bit of channel j. -/
  | decide (j : Nat)
  /-- GROUP, R112: the decisions of one tick as one small word. -/
  | group
  /-- PACK, R115: shift the sample and OR the group in. -/
  | pack
  /-- COMPLETE, R118: store the packed value, count the tick. -/
  | complete
  /-- CONFIGURE, R90: compute the tuning words, check the configuration. -/
  | configure (req : StartupRequest)
  /-- PHASE_WORD, R61: a data format. -/
  | phaseWord (p : Word)
  /-- FTW_WORD, R62: a data format. -/
  | ftwWord (f : Word)
  /-- DELTA_WORD, R64: a data format. -/
  | deltaWord (d : Word)
  /-- GROUP_B, R67: a data format; m at bit 1, r at bit 0. -/
  | groupB (m r : Bool)
  /-- SAMPLE_A, R69: a data format; r at bit 0. -/
  | sampleA (r : Bool)
  /-- SAMPLE_B, R70: a data format; m1 r1 m2 r2 at bits 3 to 0. -/
  | sampleB (m1 r1 m2 r2 : Bool)
  /-- SAMPLE_B_STRIDE4, R70: a data format; m1 r1 at bits 5 and 4, m2 r2 at bits 1 and 0. -/
  | sampleBStride4 (m1 r1 m2 r2 : Bool)
deriving DecidableEq, Repr

/-- The formats a word can have (R60): the select word, the seven data formats of the table, and no word at all
(CONFIGURE, width 0). -/
inductive Format where
  | none | sel | phase | ftw | delta | groupB | sampleA | sampleB | sampleBStride4
deriving DecidableEq, Repr

/-- The format of the row's word, the table's "format" column. -/
def Instr.format : Instr → Format
  | .reset | .hold | .tick | .fail | .emit | .stall => .sel
  | .acc _ | .effphase _ | .decide _ | .group | .pack | .complete => .sel
  | .configure _ => .none
  | .phaseWord _ => .phase
  | .ftwWord _ => .ftw
  | .deltaWord _ => .delta
  | .groupB _ _ => .groupB
  | .sampleA _ => .sampleA
  | .sampleB _ _ _ _ => .sampleB
  | .sampleBStride4 _ _ _ _ => .sampleBStride4

/-- The row whose select pattern the row carries: a micro-operation carries TICK's (R74, "part_of"); every other row
stands for itself. -/
def Instr.selectedAs : Instr → Instr
  | .acc _ | .effphase _ | .decide _ | .group | .pack | .complete => .tick
  | i => i

end Sys2Proof
end

