-- ==== Sys2Proof/WellFormed.lean ====
section
/-!
DEFINITION. Well-formed configurations, WF1 to WF5 of 00_scope.md R7, and the well-formed operations of a
configuration. WF2 and the DELTA part of WF3 hold by the type Word; CONFIGURE checks them on the host's integers
(Machine/Operands.lean).
-/

namespace Sys2Proof

/-- WF1: at least one accumulator, one channel, one tick per sample, a shift of at least one (R7). -/
def Cfg.wf1 (c : Cfg) : Bool :=
  decide (1 ≤ c.nacc) && decide (1 ≤ c.nch) && decide (1 ≤ c.nsub) && decide (1 ≤ c.stride)

/-- WF3: every channel reads an accumulator that exists (R7). -/
def Cfg.wf3 (c : Cfg) : Bool := c.chans.all fun ch => decide (ch.src < c.nacc)

/-- WF4: every position lies in the group, and no two channels share one (R7). -/
def Cfg.wf4 (c : Cfg) : Bool :=
  (c.chans.all fun ch => decide (ch.pos < c.stride)) && decide (c.chans.map ChanCfg.pos).Nodup

/-- WF5: no bit is shifted out of the 8-bit sample (R7). -/
def Cfg.wf5 (c : Cfg) : Bool := decide (c.nsub * c.stride ≤ 8)

/-- A well-formed configuration (R7). -/
def Cfg.wellFormed (c : Cfg) : Bool := c.wf1 && c.wf3 && c.wf4 && c.wf5

/-- The operations of a block with configuration c: a micro-operation names an accumulator in 0..NACC-1 (R93) or a
channel in 0..NCH-1 (R97, R110); every other row has no ill-formed operand (R75: every data word is legal, and a bad
request is refused by CONFIGURE itself, R151). -/
def Instr.wellFormed (c : Cfg) : Instr → Bool
  | .acc i => Decidable.decide (i < c.nacc)
  | .effphase j => Decidable.decide (j < c.nch)
  | .decide j => Decidable.decide (j < c.nch)
  | .reset | .hold | .tick | .fail | .emit | .stall => true
  | .group | .pack | .complete => true
  | .configure _ => true
  | .phaseWord _ | .ftwWord _ | .deltaWord _ => true
  | .groupB _ _ | .sampleA _ | .sampleB _ _ _ _ | .sampleBStride4 _ _ _ _ => true

end Sys2Proof
end

