-- ==== Sys2Proof/Decode.lean ====
section
/-!
DEFINITION. The decoder of select words (30_encoding.md R73), total and with no illegal word; the readers of the data
formats (R61 to R70), which reject by name a word whose fixed bits are set; and, after them, the encoder.
-/

namespace Sys2Proof

/-- One row of the select table of R73. -/
structure SelRow where
  pattern : SelWord
  mask    : SelWord
  step    : Instr
deriving DecidableEq, Repr

/-- The table of R73: match, mask, step. -/
def selectTable : List SelRow :=
  [⟨0x10#5, 0x10#5, .reset⟩, ⟨0x08#5, 0x18#5, .hold⟩, ⟨0x00#5, 0x1C#5, .tick⟩,
   ⟨0x06#5, 0x1E#5, .fail⟩, ⟨0x05#5, 0x1F#5, .emit⟩, ⟨0x04#5, 0x1F#5, .stall⟩]

/-- A word selects a row when SEL & mask = match (R73). -/
def SelRow.selects (r : SelRow) (w : SelWord) : Bool := decide (w &&& r.mask = r.pattern)

/-- The step a select word selects (R73), the patterns read from the most significant bit down: every one of the 32
words selects a step. -/
def decodeSelect (w : SelWord) : Instr :=
  if w &&& 0x10#5 = 0x10#5 then .reset
  else if w &&& 0x08#5 = 0x08#5 then .hold
  else if w &&& 0x04#5 = 0x00#5 then .tick
  else if w &&& 0x02#5 = 0x02#5 then .fail
  else if w &&& 0x01#5 = 0x01#5 then .emit
  else .stall

/-- Why a word is not read as an operation. -/
inductive Reject where
  /-- There is no word: CONFIGURE is selected by no select word (R74). -/
  | noWord
  /-- The word has a bit above its format's width, or its bytes are more than one select word. -/
  | tooWide (f : Format)
  /-- A bit that the format fixes at 0 is 1 (R69, R70, R71). -/
  | fixedBitsSet (f : Format)
deriving DecidableEq, Repr

/-- Bit n of a word given as a number (R10). -/
def bitOf (w n : Nat) : Bool := w.testBit n

/-- A number as a word of the given width: rejected when it does not fit. -/
def fitting (f : Format) (width w : Nat) (i : Instr) : Except Reject Instr :=
  if w < 2 ^ width then .ok i else .error (.tooWide f)

/-- Read a word in the format it is known to have (a data word carries no mark of its format: R75, all values of
F-PHASE, F-FTW and F-DELTA are legal). -/
def decodeAs : Format → Nat → Except Reject Instr
  | .none, _ => .error .noWord
  | .sel, w => fitting .sel 5 w (decodeSelect (BitVec.ofNat 5 w))
  | .phase, w => fitting .phase 32 w (.phaseWord (BitVec.ofNat 32 w))
  | .ftw, w => fitting .ftw 32 w (.ftwWord (BitVec.ofNat 32 w))
  | .delta, w => fitting .delta 32 w (.deltaWord (BitVec.ofNat 32 w))
  | .groupB, w => fitting .groupB 2 w (.groupB (bitOf w 1) (bitOf w 0))
  | .sampleA, w =>
    if w &&& 0xFE = 0 then fitting .sampleA 8 w (.sampleA (bitOf w 0)) else .error (.fixedBitsSet .sampleA)
  | .sampleB, w =>
    if w &&& 0xF0 = 0 then fitting .sampleB 8 w (.sampleB (bitOf w 3) (bitOf w 2) (bitOf w 1) (bitOf w 0))
    else .error (.fixedBitsSet .sampleB)
  | .sampleBStride4, w =>
    if w &&& 0xCC = 0 then
      fitting .sampleBStride4 8 w (.sampleBStride4 (bitOf w 5) (bitOf w 4) (bitOf w 1) (bitOf w 0))
    else .error (.fixedBitsSet .sampleBStride4)

/-- Read the first select word of a list of bytes, one word a byte with bits 7 to 5 zero (DESIGN CHOICE, log entry 12:
the spec lays no select word out in bytes; safe). Answers the step and the bytes after it. -/
def decodeBytes : List Byte → Except Reject (Instr × List Byte)
  | [] => .error .noWord
  | b :: rest =>
    match decodeAs .sel b.toNat with
    | .ok i => .ok (i, rest)
    | .error e => .error e

/-- The host's question: the operation read from the low nbits of w. A word of no bits is CONFIGURE, its operands all
zero (log entry 12); a word of one byte is a select word; a wider word is none the machine reads by itself (R74: "A
decoder of steps uses the step rows only"). -/
def decodeTableWord (nbits w : Nat) : Option Instr :=
  if nbits = 0 then some (.configure StartupRequest.zero)
  else if nbits ≤ 8 then (decodeAs .sel w).toOption
  else none

/-- A word with its width in bits. -/
structure Code where
  width : Nat
  word  : Nat
deriving DecidableEq, Repr

/-- A bit at a position, as a number. -/
def bitAt (b : Bool) (n : Nat) : Nat := b.toNat <<< n

/-- The encoder, from the same tables: the "match" of the row with the fields put in; a bit not looked at is 0. A
micro-operation carries TICK's pattern (R74). CONFIGURE has no word (R74, width 0). -/
def encode : Instr → Code
  | .reset => ⟨5, 0x10⟩
  | .hold => ⟨5, 0x08⟩
  | .tick => ⟨5, 0x00⟩
  | .fail => ⟨5, 0x06⟩
  | .emit => ⟨5, 0x05⟩
  | .stall => ⟨5, 0x04⟩
  | .acc _ | .effphase _ | .decide _ | .group | .pack | .complete => ⟨5, 0x00⟩
  | .configure _ => ⟨0, 0⟩
  | .phaseWord p => ⟨32, p.toNat⟩
  | .ftwWord f => ⟨32, f.toNat⟩
  | .deltaWord d => ⟨32, d.toNat⟩
  | .groupB m r => ⟨2, bitAt m 1 ||| bitAt r 0⟩
  | .sampleA r => ⟨8, bitAt r 0⟩
  | .sampleB m1 r1 m2 r2 => ⟨8, bitAt m1 3 ||| bitAt r1 2 ||| bitAt m2 1 ||| bitAt r2 0⟩
  | .sampleBStride4 m1 r1 m2 r2 => ⟨8, bitAt m1 5 ||| bitAt r1 4 ||| bitAt m2 1 ||| bitAt r2 0⟩

/-- The bytes of a row of the select format, one byte a word. -/
def encodeBytes (i : Instr) : List Byte := [BitVec.ofNat 8 (encode i).word]

end Sys2Proof
end

