-- ==== Sys2Proof/Machine/State.lean ====
section
/-!
DEFINITION. The state of the block as plain data (10_state.md R20), the reasons a step can stop, and the state right
after reset (R34).
-/

namespace Sys2Proof.Machine

/-- The start-up condition of the block (R151, R182). The MODEL's own field (log entry 3). -/
inductive Boot where
  /-- CONFIGURE raised ConfigurationError: the block never leaves reset (R151). -/
  | refused (what : ConfigField)
  /-- CONFIGURE is done and reset has not been applied yet (R182, between (2) and (4)). -/
  | configured
  /-- The last clock edge performed RESET. -/
  | inReset
  /-- Reset has been released: R130 selects each step. -/
  | running
deriving DecidableEq, Repr

/-- The values local to one TICK, which its micro-operations pass to one another: the effective phases e_j (R97), the
decision bits b_j (R110), the group g (R112) and the packed value s (R115). The MODEL's own field (log entry 8): it is
cleared at the end of every tick. -/
structure Work where
  eff    : List Word
  bits   : List Bool
  group  : Byte
  packed : Byte
deriving DecidableEq, Repr

/-- No tick is under way: every local value cleared, one e_j and one b_j per channel. -/
def Work.clear (nch : Nat) : Work :=
  { eff := List.replicate nch 0, bits := List.replicate nch false, group := 0, packed := 0 }

/-- The state of one block (R20), with the configuration it was given (R6; log entry 1), the stream it has written
(R29), and the model's own fields (log entries 2, 3 and 8). -/
structure State where
  /-- The configuration constants (R6, R30). -/
  cfg    : Cfg
  /-- PHASE[i], one word per accumulator (R21). -/
  phase  : List Word
  /-- SAMPLE, the assembly register (R24). -/
  sample : Byte
  /-- SUB, the ticks done in this output period (R26). -/
  sub    : Nat
  /-- OUT, the hand-over register (R27). -/
  out    : Byte
  /-- OUTV: OUT holds a sample not yet delivered (R27). -/
  outv   : Bool
  /-- HALT: an IOError has happened (R28). -/
  halt   : Bool
  /-- STREAM, the bytes delivered so far, oldest first (R29, R41). -/
  stream : List Byte
  /-- The start-up condition (model's own). -/
  boot   : Boot
  /-- What the environment is scheduled to do, next event first (model's own). -/
  inputs : List EnvEvent
  /-- How many events of the environment have been taken (model's own). -/
  now    : Nat
  /-- The values local to a tick (model's own). -/
  work   : Work
deriving DecidableEq, Repr

/-- The reasons the model faults. The block itself has no fault (R150); the model's two are for a micro-operation on an
accumulator or channel that the configuration does not have. -/
inductive Fault where
  /-- Raised by ACC i with i not in 0..NACC-1 (R93). Safe: the spec has no such operation. -/
  | noSuchAccumulator (i : Nat)
  /-- Raised by EFFPHASE j and DECIDE j with j not in 0..NCH-1 (R97, R110). Safe: the spec has no such operation. -/
  | noSuchChannel (j : Nat)
deriving DecidableEq, Repr

/-- The reasons the model refuses. -/
inductive Refusal where
  /-- Raised by exec for an operation that has no meaning yet. Safe. -/
  | notModelled (mnemonic : String)
  /-- Raised by the seven data-format rows: a layout of bits is no operation (R74). Safe. -/
  | dataFormat (f : Format)
  /-- Raised by TICK and its micro-operations in a state whose configuration is not well-formed or whose registers have
  not its shape: "the block is defined only for well-formed configurations" (R7). Safe. -/
  | illFormedConfiguration
  /-- Raised by CONFIGURE on a running block: a configuration that changes while the block runs is outside the spec,
  "a model treats such a run as refused" (R185). Safe. -/
  | reconfiguredWhileRunning
deriving DecidableEq, Repr

/-- What a step or an operation answers. -/
abbrev Result := Host.Outcome State Fault Refusal

/-- The state right after RESET of a block with configuration c, with an empty stream (R34) and the given schedule of
environment events. -/
def State.resetOf (c : Cfg) (inputs : List EnvEvent) : State :=
  { cfg := c, phase := c.accs.map AccCfg.phaseInit, sample := 0x00#8, sub := 0, out := 0x00#8, outv := false,
    halt := false, stream := [], boot := .inReset, inputs := inputs, now := 0, work := Work.clear c.nch }

/-- The state right after reset (R34). DESIGN CHOICE (log entry 1): its configuration is Variant A with the tuning word
of the spec's example S1, since the spec keeps the configuration a parameter. UNSAFE for a claim that rests on that
configuration; the statements quantify over it. -/
def State.reset : State := State.resetOf (cfgA ftw2M0At24M) []

end Sys2Proof.Machine
end

