-- ==== Sys2Proof/Machine/Flags.lean ====
section
/-!
DEFINITION. Everything computed as one bit or from the one-bit state: the decision (R110), the two flags' rules (R27,
R28), the output pins (R72), the sink's answer (R48), the select word (R73) and the error number (R153). There are no
condition codes (R29).
-/

namespace Sys2Proof.Machine

/-- DECIDE's comparison, unsigned: b = 1 when e >= 0x80000000 (R66, R110). -/
def decideBit (e : Word) : Bool := decide (0x80000000#32 ≤ e)

/-- The test of COMPLETE: this tick finishes the output period, SUB = NSUB - 1 (R118). -/
def periodEnds (c : Cfg) (sub : Nat) : Bool := decide (sub = c.nsub - 1)

/-- Reset is being applied by the start-up sequence itself: until the first RESET after CONFIGURE (R182 (4)), and for
ever after a ConfigurationError (R151). -/
def heldInReset : Boot → Bool
  | .refused _ => true
  | .configured => true
  | .inReset => false
  | .running => false

/-- The start-up condition after a clock edge that performed RESET: a refused block stays refused (R151). -/
def bootAfterReset : Boot → Boot
  | .refused what => .refused what
  | .configured => .inReset
  | .inReset => .inReset
  | .running => .inReset

/-- The output pins of a state (R72): out_data = OUT, out_valid = OUTV and not HALT, halted = HALT. -/
def outPins (s : State) : OutPins :=
  { outData := s.out, outValid := s.outv && !s.halt, halted := s.halt }

/-- The sink's answer coded on its two pins, the error first (R72, R73, R155). -/
def sinkAnswer (p : Pins) : SinkAnswer :=
  if p.outErr then .error else if p.outReady then .accept else .busy

/-- The select word at an edge: rst, HALT, OUTV, out_err, out_ready from bit 4 down (R73). -/
def selectWord (s : State) (p : Pins) : SelWord :=
  BitVec.ofBool (p.rst || heldInReset s.boot) ++ BitVec.ofBool s.halt ++ BitVec.ofBool s.outv ++
    BitVec.ofBool p.outErr ++ BitVec.ofBool p.outReady

/-- The error a state stands for, if any (R151, R152): the block has no cause register (R153). -/
def errorOf (s : State) : Option ErrorKind :=
  match s.boot with
  | .refused what => some (.configurationError what)
  | .configured | .inReset | .running => if s.halt then some .ioError else none

/-- The numbers of the error kinds (R153). -/
def errorCode : Option ErrorKind → Nat
  | none => 0
  | some (.configurationError _) => 1
  | some .ioError => 2

end Sys2Proof.Machine
end

