-- ==== Sys2Proof/Machine/Operands.lean ====
section
/-!
DEFINITION. The operand arithmetic: the two 32-bit modular additions (40_accumulate.md R93, R97), the composition of
the group and the sample (41_decide_pack.md R112, R115), and the assembly and checking of a configuration by CONFIGURE
(R63, R90, R7).
-/

namespace Sys2Proof.Machine

/-- ACC's adder: the carry out of bit 31 is dropped (R93, R94). -/
def accSum (phase ftw : Word) : Word := phase + ftw

/-- EFFPHASE's adder (R65, R97). -/
def effectivePhase (phase delta : Word) : Word := phase + delta

/-- A decision bit at its position of the group, b_j << POS[j] (R112). -/
def placedBit (b : Bool) (pos : Nat) : Byte := (BitVec.ofBool b).setWidth 8 <<< pos

/-- The group of a tick: the OR of every channel's bit at its position (R67, R112). -/
def groupOf : List ChanCfg → List Bool → Byte
  | c :: cs, b :: bs => placedBit b c.pos ||| groupOf cs bs
  | [], _ => 0
  | _ :: _, [] => 0

/-- PACK: ((SAMPLE << STRIDE) | g) mod 256 (R68, R115). -/
def packed (stride : Nat) (sample g : Byte) : Byte := (sample <<< stride) ||| g

/-- The fraction of a cycle a phase, a tuning word or an offset stands for (R61, R62, R64). -/
def cycleFraction (w : Word) : Rat := (w.toNat : Rat) / 2 ^ 32

/-- The frequency a tuning word stands for at a given sample rate (R62, R191). -/
def frequencyOf (ftw : Word) (sampleRate : Rat) : Rat := cycleFraction ftw * sampleRate

/-- n / d rounded to the nearest integer, an exact half to the even neighbour (R63, R90, D8). -/
def roundHalfEven (n d : Nat) : Nat :=
  if 2 * (n % d) < d then n / d
  else if d < 2 * (n % d) then n / d + 1
  else if n / d % 2 = 0 then n / d
  else n / d + 1

/-- round_half_even(reference_frequency * 2^32 / sample_rate) for a frequency >= 0 and a rate > 0, in exact arithmetic
on the numerators and denominators of the two rationals (R63, R90). -/
def tuningNumber (frequency sampleRate : Rat) : Nat :=
  roundHalfEven (frequency.num.toNat * 2 ^ 32 * sampleRate.den) (frequency.den * sampleRate.num.toNat)

/-- The tuning word of one accumulator, or the refusal of its reference_frequency (R90). -/
def tuningWord (sampleRate : Rat) : RealInput → Except ConfigField Word
  | .notFinite => .error .referenceFrequency
  | .finite f =>
    if f.num < 0 then .error .referenceFrequency
    else if tuningNumber f sampleRate ≤ 2 ^ 32 - 1 then .ok (BitVec.ofNat 32 (tuningNumber f sampleRate))
    else .error .referenceFrequency

/-- The loop of CONFIGURE over the accumulators, in index order, stopping at the first refusal (R90). -/
def tuningWords (sampleRate : Rat) : List AccRequest → Except ConfigField (List AccCfg)
  | [] => .ok []
  | a :: as =>
    match tuningWord sampleRate a.referenceFrequency with
    | .error e => .error e
    | .ok ftw =>
      match tuningWords sampleRate as with
      | .error e => .error e
      | .ok rest => .ok (⟨ftw, BitVec.ofInt 32 a.phaseInit⟩ :: rest)

/-- A value of the unsigned 32-bit type: 0 <= v < 2^32 (WF2, WF3 of R7). -/
def inWordRange (v : Int) : Bool := decide (0 ≤ v) && decide (v < 2 ^ 32)

/-- The field, if the condition says it is bad. -/
def badIf (bad : Bool) (f : ConfigField) : List ConfigField := if bad then [f] else []

/-- The fields that make the rest of a request not well-formed, by WF1 to WF5 (R7). DESIGN CHOICE (log entry 6): where a
relation between two fields fails, R90's "the offending field" is SRC alone for SRC >= NACC (WF3), POS alone for
POS >= STRIDE (WF4), and NSUB or STRIDE alike for NSUB * STRIDE > 8 (WF5). UNSAFE for a claim that rests on the name. -/
def offenders (r : StartupRequest) : List ConfigField :=
  badIf r.accs.isEmpty .nacc ++ badIf r.chans.isEmpty .nch ++
  badIf (decide (r.nsub < 1)) .nsub ++ badIf (decide (r.stride < 1)) .stride ++
  badIf (r.accs.any fun a => !inWordRange a.phaseInit) .phaseInit ++
  badIf (r.chans.any fun c => !inWordRange c.delta) .delta ++
  badIf (r.chans.any fun c => decide (c.src < 0) || decide ((r.accs.length : Int) ≤ c.src)) .src ++
  badIf ((r.chans.any fun c => decide (c.pos < 0) || decide (r.stride ≤ c.pos)) ||
    !decide (r.chans.map ChanRequest.pos).Nodup) .pos ++
  if 1 ≤ r.nsub ∧ 1 ≤ r.stride ∧ 8 < r.nsub * r.stride then [.nsub, .stride] else []

/-- The one field that ConfigurationError names: where several are bad, a free choice among them (log entry 6). -/
def namedOffender : List ConfigField → Option ConfigField
  | [] => none
  | [f] => some f
  | f :: g :: fs => some ((f :: g :: fs).getD (Config.offenderIndex (f :: g :: fs) % (f :: g :: fs).length) f)

/-- The configuration a checked request stands for. -/
def builtCfg (accs : List AccCfg) (r : StartupRequest) : Cfg :=
  { accs := accs
    chans := r.chans.map fun c => ⟨c.src.toNat, BitVec.ofInt 32 c.delta, c.pos.toNat⟩
    nsub := r.nsub.toNat
    stride := r.stride.toNat }

/-- CONFIGURE's result: the configuration, or the field that ConfigurationError names; the checks in the order of
R90. -/
def configured (r : StartupRequest) : Except ConfigField Cfg :=
  match r.sampleRate with
  | .notFinite => .error .sampleRate
  | .finite rate =>
    if rate.num ≤ 0 then .error .sampleRate
    else
      match tuningWords rate r.accs with
      | .error e => .error e
      | .ok accs =>
        match namedOffender (offenders r) with
        | some f => .error f
        | none => .ok (builtCfg accs r)

end Sys2Proof.Machine
end

