-- ==== Sys2Proof/Machine/Ops.lean ====
section
/-!
DEFINITION. The named operations on the state: the phase registers, the parts of a tick, the output stream, raising an
error, reset, and taking the environment's next event. The block has no memory (20_memory.md R40): StreamWrite is its
one store.
-/

namespace Sys2Proof.Machine

/-- The registers have the shape the configuration gives them, and the configuration is well-formed (R7, R20). -/
def State.coherent (s : State) : Bool :=
  s.cfg.wellFormed && decide (s.phase.length = s.cfg.nacc) && decide (s.work.eff.length = s.cfg.nch) &&
    decide (s.work.bits.length = s.cfg.nch)

/-- "The block is defined only for well-formed configurations" (R7): any other state is refused. -/
def State.ifCoherent (s : State) (r : Result) : Result :=
  if s.coherent then r else .refused .illFormedConfiguration

/-- PHASE[i] (R21). -/
def State.readPhase (s : State) (i : Nat) : Word := s.phase.getD i 0

/-- FTW[i] (R31). -/
def ftwOf (c : Cfg) (i : Nat) : Word := (c.accs.map AccCfg.ftw).getD i 0

/-- The constants of channel j (R6). -/
def chanOf (c : Cfg) (j : Nat) : ChanCfg := c.chans.getD j ⟨0, 0, 0⟩

/-- ACC i: PHASE[i] <- (PHASE[i] + FTW[i]) mod 2^32 (R93). -/
def State.accOne (s : State) (i : Nat) : State :=
  { s with phase := s.phase.set i (accSum (s.readPhase i) (ftwOf s.cfg i)) }

/-- ACC for every accumulator (R95, R131). -/
def State.accAll (s : State) : State :=
  { s with phase := List.zipWith (fun p a => accSum p a.ftw) s.phase s.cfg.accs }

/-- e_j from the phase registers as they stand, which inside a tick is after its ACC (R97, R98). -/
def State.effOf (s : State) (c : ChanCfg) : Word := effectivePhase (s.readPhase c.src) c.delta

/-- EFFPHASE j (R97). -/
def State.effOne (s : State) (j : Nat) : State :=
  { s with work := { s.work with eff := s.work.eff.set j (s.effOf (chanOf s.cfg j)) } }

/-- EFFPHASE for every channel (R131). -/
def State.effAll (s : State) : State :=
  { s with work := { s.work with eff := s.cfg.chans.map s.effOf } }

/-- DECIDE j (R110). -/
def State.decideOne (s : State) (j : Nat) : State :=
  { s with work := { s.work with bits := s.work.bits.set j (decideBit (s.work.eff.getD j 0)) } }

/-- DECIDE for every channel (R131). -/
def State.decideAll (s : State) : State :=
  { s with work := { s.work with bits := s.work.eff.map decideBit } }

/-- GROUP (R112). -/
def State.groupBits (s : State) : State :=
  { s with work := { s.work with group := groupOf s.cfg.chans s.work.bits } }

/-- PACK (R115). -/
def State.packGroup (s : State) : State :=
  { s with work := { s.work with packed := packed s.cfg.stride s.sample s.work.group } }

/-- COMPLETE (R118): store the packed value and count the tick; at the last tick of the period hand it over. The tick's
local values end here. -/
def State.completeTick (s : State) : State :=
  if periodEnds s.cfg s.sub then
    { s with out := s.work.packed, outv := true, sample := 0x00#8, sub := 0, work := Work.clear s.cfg.nch }
  else
    { s with sample := s.work.packed, sub := s.sub + 1, work := Work.clear s.cfg.nch }

/-- StreamWrite(b): append one byte to STREAM (R41, R44). -/
def State.streamWrite (s : State) (b : Byte) : State := { s with stream := s.stream ++ [b] }

/-- OUTV <- 0 (R133). -/
def State.clearOutv (s : State) : State := { s with outv := false }

/-- TAKING AN ERROR (R156): no state is saved, no handler runs. ConfigurationError keeps the block in reset and records
the bad value (R151); IOError sets HALT and nothing else (R135, R152). There is no return from either (R157). -/
def State.raise (s : State) : ErrorKind → State
  | .configurationError what => { s with boot := .refused what }
  | .ioError => { s with halt := true }

/-- The configuration constants are present at the block; reset is still to be applied (R182 (2)). -/
def State.configure (s : State) (c : Cfg) : State := { s with cfg := c, boot := .configured }

/-- RESET (R139): every element of state at its reset value (R34); STREAM keeps what it has. -/
def State.resetAll (s : State) : State :=
  { s with phase := s.cfg.accs.map AccCfg.phaseInit, sample := 0x00#8, sub := 0, out := 0x00#8, outv := false,
           halt := false, boot := bootAfterReset s.boot, work := Work.clear s.cfg.nch }

/-- The environment's next event: the first one scheduled, or a free one (R33, R48; log entry 2). -/
def State.nextEvent (s : State) : EnvEvent :=
  match s.inputs with
  | e :: _ => e
  | [] => Config.freeEvent s.now

/-- Reset is asserted at an edge: by the pin, or by the start-up sequence (R182 (4), R151). -/
def State.resetAsserted (s : State) (p : Pins) : Bool := p.rst || heldInReset s.boot

/-- The operation that comes next: the host's CONFIGURE, or the step that the select word of the edge selects (R73,
R130). -/
def State.nextInstr (s : State) : Instr :=
  match s.nextEvent with
  | .configure r => .configure r
  | .edge p => decodeSelect (selectWord s p)

/-- The start-up condition as the next operation finds it: an edge without reset releases the block (R180, R181). -/
def State.nextBoot (s : State) : Boot :=
  match s.nextEvent with
  | .configure _ => s.boot
  | .edge p => if s.resetAsserted p then s.boot else .running

/-- The environment's event is taken. -/
def State.advance (s : State) : State :=
  { s with inputs := s.inputs.tail, now := s.now + 1, boot := s.nextBoot }

end Sys2Proof.Machine
end

