-- ==== Sys2Proof/Machine/ClockedSteps.lean ====
section
/-!
DEFINITION. The six steps of 42_step_ops.md. A meaning is the effect of the step's pseudocode; that a step happens only
under its precondition is the work of the select word (R130; log entry 10).
-/

namespace Sys2Proof.Machine

/-- RESET (R139). -/
def execReset (s : State) : Result := .next s.resetAll

/-- HOLD (R136): no state changes. -/
def execHold (s : State) : Result := .next s

/-- TICK (R131): ACC for every accumulator, EFFPHASE and DECIDE for every channel, GROUP, PACK, COMPLETE. -/
def execTick (s : State) : Result :=
  s.ifCoherent (.next s.accAll.effAll.decideAll.groupBits.packGroup.completeTick)

/-- FAIL (R135): IOError; nothing is appended, OUT and OUTV keep their values. -/
def execFail (s : State) : Result := .next (s.raise .ioError)

/-- EMIT (R133): StreamWrite(OUT), OUTV <- 0. -/
def execEmit (s : State) : Result := .next (s.streamWrite s.out).clearOutv

/-- STALL (R134): no state changes, the offered byte waits. -/
def execStall (s : State) : Result := .next s

end Sys2Proof.Machine
end

