-- ==== Sys2Proof/Machine/DataFormats.lean ====
section
/-!
DEFINITION. The seven data-format rows of the opcode table. A format is a layout of bits and no operation (30_encoding.md
R74: "A decoder of steps uses the step rows only"), so each is refused by its own name; what the layouts say is in
Decode.lean, and the words themselves are in State and in the operations that make them.
-/

namespace Sys2Proof.Machine

/-- PHASE_WORD (R61): the layout of PHASE[i]; there is no operation that loads or reads one (R21, N10). -/
def execPhaseWord (_p : Word) (_s : State) : Result := .refused (.dataFormat .phase)

/-- FTW_WORD (R62): the layout of FTW[i]; there is no write path (R30). -/
def execFtwWord (_f : Word) (_s : State) : Result := .refused (.dataFormat .ftw)

/-- DELTA_WORD (R64): the layout of DELTA[j]; there is no write path (R30). -/
def execDeltaWord (_d : Word) (_s : State) : Result := .refused (.dataFormat .delta)

/-- GROUP_B (R67): the layout of the group of CFG_B. -/
def execGroupB (_m _r : Bool) (_s : State) : Result := .refused (.dataFormat .groupB)

/-- SAMPLE_A (R69): the layout of Variant A's byte. -/
def execSampleA (_r : Bool) (_s : State) : Result := .refused (.dataFormat .sampleA)

/-- SAMPLE_B (R70): the layout of Variant B's byte. -/
def execSampleB (_m1 _r1 _m2 _r2 : Bool) (_s : State) : Result := .refused (.dataFormat .sampleB)

/-- SAMPLE_B_STRIDE4 (R70): the layout of Variant B's byte with STRIDE = 4. -/
def execSampleBStride4 (_m1 _r1 _m2 _r2 : Bool) (_s : State) : Result := .refused (.dataFormat .sampleBStride4)

end Sys2Proof.Machine
end

