-- ==== Sys2Proof/Machine/MicroOps.lean ====
section
/-!
DEFINITION. The six micro-operations of a TICK (40_accumulate.md, 41_decide_pack.md). The block performs them only
inside TICK (R13); as operations of their own they act on the state and on the tick's local values (log entry 8).
-/

namespace Sys2Proof.Machine

/-- ACC i (R93). -/
def execAcc (i : Nat) (s : State) : Result :=
  s.ifCoherent (if i < s.cfg.nacc then .next (s.accOne i) else .fault (.noSuchAccumulator i))

/-- EFFPHASE j (R97). -/
def execEffphase (j : Nat) (s : State) : Result :=
  s.ifCoherent (if j < s.cfg.nch then .next (s.effOne j) else .fault (.noSuchChannel j))

/-- DECIDE j (R110). -/
def execDecide (j : Nat) (s : State) : Result :=
  s.ifCoherent (if j < s.cfg.nch then .next (s.decideOne j) else .fault (.noSuchChannel j))

/-- GROUP (R112). -/
def execGroup (s : State) : Result := s.ifCoherent (.next s.groupBits)

/-- PACK (R115). -/
def execPack (s : State) : Result := s.ifCoherent (.next s.packGroup)

/-- COMPLETE (R118). -/
def execComplete (s : State) : Result := s.ifCoherent (.next s.completeTick)

end Sys2Proof.Machine
end

