-- ==== Sys2Proof/Machine/Startup.lean ====
section
/-!
DEFINITION. The startup operation CONFIGURE (40_accumulate.md R90).
-/

namespace Sys2Proof.Machine

/-- CONFIGURE (R90): a good request gives the configuration constants and no register changes; a bad one raises
ConfigurationError (R151). On a running block it is refused (R91: "exactly once per run and strictly before the first
TICK"; R185). -/
def execConfigure (req : StartupRequest) (s : State) : Result :=
  match s.boot with
  | .running => .refused .reconfiguredWhileRunning
  | .refused _ | .configured | .inReset =>
    match configured req with
    | .error what => .next (s.raise (.configurationError what))
    | .ok c => .next (s.configure c)

end Sys2Proof.Machine
end

