-- ==== Sys2Proof/Machine/Dispatch.lean ====
section
/-!
DEFINITION. The meaning of every row of the opcode table, one arm per constructor of Instr.
-/

namespace Sys2Proof.Machine

def exec (i : Instr) (s : State) : Host.Outcome State Fault Refusal :=
  match i with
  | .reset => Sys2Proof.Machine.execReset s
  | .hold => Sys2Proof.Machine.execHold s
  | .tick => Sys2Proof.Machine.execTick s
  | .fail => Sys2Proof.Machine.execFail s
  | .emit => Sys2Proof.Machine.execEmit s
  | .stall => Sys2Proof.Machine.execStall s
  | .acc k => Sys2Proof.Machine.execAcc k s
  | .effphase j => Sys2Proof.Machine.execEffphase j s
  | .decide j => Sys2Proof.Machine.execDecide j s
  | .group => Sys2Proof.Machine.execGroup s
  | .pack => Sys2Proof.Machine.execPack s
  | .complete => Sys2Proof.Machine.execComplete s
  | .configure req => Sys2Proof.Machine.execConfigure req s
  | .phaseWord p => Sys2Proof.Machine.execPhaseWord p s
  | .ftwWord f => Sys2Proof.Machine.execFtwWord f s
  | .deltaWord d => Sys2Proof.Machine.execDeltaWord d s
  | .groupB m r => Sys2Proof.Machine.execGroupB m r s
  | .sampleA r => Sys2Proof.Machine.execSampleA r s
  | .sampleB m1 r1 m2 r2 => Sys2Proof.Machine.execSampleB m1 r1 m2 r2 s
  | .sampleBStride4 m1 r1 m2 r2 => Sys2Proof.Machine.execSampleBStride4 m1 r1 m2 r2 s

end Sys2Proof.Machine
end

