-- ==== Sys2Proof/Machine/Step.lean ====
section
/-!
DEFINITION. One step of the machine: the environment's next event is taken and the operation it selects is executed
(42_step_ops.md R130); and how the host places a word so that the next step runs it.
-/

namespace Sys2Proof.Machine

/-- One step (R13, R130): at a clock edge exactly one step happens; CONFIGURE happens where the host does it. -/
def step (s : State) : Host.Outcome State Fault Refusal := exec s.nextInstr s.advance

/-- The state in which the next step runs the word w of the host's table. A word of no bits is the host's CONFIGURE,
every operand zero; a select word puts rst, out_err and out_ready on the pins of the next edge and HALT and OUTV into
the state (R73), with the block out of its start-up sequence, since that would assert reset by itself. -/
def State.withFetchWord (s : State) (nbits w : Nat) : State :=
  if nbits = 0 then { s with inputs := .configure StartupRequest.zero :: s.inputs }
  else
    { s with halt := bitOf w 3, outv := bitOf w 2,
             inputs := .edge ⟨bitOf w 4, bitOf w 1, bitOf w 0⟩ :: s.inputs,
             boot := if heldInReset s.boot then .inReset else s.boot }

end Sys2Proof.Machine
end

