-- ==== Sys2Proof/Machine/Instances.lean ====
section
/-!
DEFINITION. Several blocks side by side (10_state.md R37, 60_exceptions.md R162): "A model of several instances is the
product of their states, each with its own stream".
-/

namespace Sys2Proof.Machine

/-- One step of the k-th block of a bank: that block steps by itself, and no other changes. A block that is not there
takes no step. DESIGN CHOICE (log entry 23): one block at a time, and one Config.freeEvent for all of them. -/
def stepAt (k : Nat) (bank : List State) : Host.Outcome (List State) Fault Refusal :=
  match bank[k]? with
  | none => .next bank
  | some s =>
    match step s with
    | .next t => .next (bank.set k t)
    | .fault f => .fault f
    | .refused r => .refused r

end Sys2Proof.Machine
end

