-- ==== Sys2Proof/Safety.lean ====
section
/-!
DEFINITION. The terms that claims use: runs and their traces, the invariant of every reachable state, and the spec's
closed forms written in plain number arithmetic, independently of the machine's operations (10_state.md R36,
20_memory.md R47, 30_encoding.md R68).
-/

namespace Sys2Proof.Machine

/-- The next state of an outcome goes on; a fault or a refusal stays. -/
def Result.andThen (r : Result) (f : State → Result) : Result :=
  match r with
  | .next s => f s
  | .fault e => .fault e
  | .refused e => .refused e

/-- A list of operations executed one after the other, oldest first. -/
def runInstrs : List Instr → State → Result
  | [], s => .next s
  | i :: is, s => Result.andThen (exec i s) (runInstrs is)

/-- k steps of the machine. -/
def runSteps : Nat → State → Result
  | 0, s => .next s
  | k + 1, s => Result.andThen (step s) (runSteps k)

/-- The operations that the first k steps perform, oldest first (the run letters of R76). -/
def trace : Nat → State → List Instr
  | 0, _ => []
  | k + 1, s =>
    s.nextInstr ::
      (match step s with
       | .next t => trace k t
       | .fault _ => []
       | .refused _ => [])

/-- The micro-operations of one TICK in the order of R131. -/
def microProgram (c : Cfg) : List Instr :=
  (List.range c.nacc).map Instr.acc ++
    (List.range c.nch).flatMap (fun j => [Instr.effphase j, Instr.decide j]) ++ [.group, .pack, .complete]

/-- No operation of the list puts the block back to a start: neither RESET nor CONFIGURE. -/
def keepsRunning (is : List Instr) : Bool :=
  is.all fun i =>
    match i with
    | .reset => false
    | .configure _ => false
    | _ => true

/-- What holds of the registers of a block that has been reset and not configured since (R20, R24, R26, R117): their
shape, SUB in range, SAMPLE zero when SUB is, SAMPLE within the bits of the ticks done, no tick under way. -/
def State.inShape (s : State) : Prop :=
  s.phase.length = s.cfg.nacc ∧ s.work = Work.clear s.cfg.nch ∧ s.sub < s.cfg.nsub ∧
    (s.sub = 0 → s.sample = 0) ∧ s.sample.toNat < 2 ^ (s.cfg.stride * s.sub)

/-- The invariant of every state a run reaches: the configuration is well-formed (R7), and unless the block waits for
its start-up reset (R182) or was refused (R151) its registers are in shape. -/
def State.Inv (s : State) : Prop :=
  s.cfg.wellFormed = true ∧ (heldInReset s.boot = false → s.inShape)

/-- The bits of a sample that n ticks can set: position POS[j] of each of the n groups (R71). -/
def layoutMask (c : Cfg) : Nat → Byte
  | 0 => 0
  | n + 1 => (layoutMask c n <<< c.stride) ||| groupOf c.chans (c.chans.map fun _ => true)

/-- Every bit of a byte outside the layout of n ticks is 0 (R71). -/
def unusedBitsZero (c : Cfg) (n : Nat) (b : Byte) : Prop := b &&& ~~~(layoutMask c n) = 0

/-- PHASE[i] after k ticks since reset: (PHASE_INIT[i] + k * FTW[i]) mod 2^32 (R36). -/
def phaseNumber (c : Cfg) (k i : Nat) : Nat :=
  (((c.accs.getD i ⟨0, 0⟩).phaseInit.toNat) + k * (c.accs.getD i ⟨0, 0⟩).ftw.toNat) % 2 ^ 32

/-- The decision of a channel in a tick, from the numbers of its phase registers: 1 if
(PHASE'[SRC] + DELTA) mod 2^32 >= 2^31, else 0 (R65, R66). -/
def decisionNumber (phases : Nat → Nat) (ch : ChanCfg) : Nat :=
  if 2 ^ 31 ≤ (phases ch.src + ch.delta.toNat) % 2 ^ 32 then 1 else 0

/-- The group of a tick, from the numbers of its phase registers: the OR of b_j << POS[j] (R67). -/
def groupNumber (phases : Nat → Nat) : List ChanCfg → Nat
  | [] => 0
  | ch :: chs => (decisionNumber phases ch <<< ch.pos) ||| groupNumber phases chs

/-- The group of the k-th tick since reset, k from 1: G(k) of R47. -/
def groupAt (c : Cfg) (k : Nat) : Nat := groupNumber (phaseNumber c k) c.chans

/-- s_t of R68 for a period whose groups are g 0, g 1, ...: s_0 = 0, s_t = ((s_(t-1) << STRIDE) | g_t) mod 256. -/
def packedNumber (stride : Nat) (g : Nat → Nat) : Nat → Nat
  | 0 => 0
  | t + 1 => ((packedNumber stride g t <<< stride) ||| g t) % 256

/-- The n-th byte of STREAM since reset, n from 0 (R45, R68): the sample of ticks n*NSUB + 1 to (n + 1)*NSUB. -/
def byteAt (c : Cfg) (n : Nat) : Nat := packedNumber c.stride (fun t => groupAt c (n * c.nsub + t + 1)) c.nsub

/-- The sum of R47 and R68 for one period: each group at its own place, the earliest the highest. -/
def summedNumber (stride nsub : Nat) (g : Nat → Nat) : Nat :=
  ((List.range nsub).map fun t => g t <<< (stride * (nsub - 1 - t))).sum

end Sys2Proof.Machine
end

