-- ==== Sys2Proof/Certificates/Slice0/Obligations.lean ====
section
/-!
DEFINITION. The statements for the provers. Right sides are written in plain number arithmetic wherever a value is
computed, so that they do not repeat the machine's own operations.
-/

open Sys2Proof Sys2Proof.Machine

/-! ### Decoding and step selection -/

/-- Every select word matches exactly one row of the table of R73, and that row's step is what the decoder gives. The
word is the spec's own (D16). -/
def Obligations.SelectWordPicksExactlyOneStep : Prop :=
  ∀ w : SelWord, (selectTable.filter fun r => r.selects w).map SelRow.step = [decodeSelect w]

/-- Words written out bit by bit from 30_encoding.md sections 2, 3 and 5, one or more per family. -/
def Obligations.WrittenOutWordsDecode : Prop :=
  decodeSelect 0b10000#5 = .reset ∧ decodeSelect 0b11111#5 = .reset ∧ decodeSelect 0b01101#5 = .hold ∧
    decodeSelect 0b00010#5 = .tick ∧ decodeSelect 0b00111#5 = .fail ∧ decodeSelect 0b00101#5 = .emit ∧
    decodeSelect 0b00100#5 = .stall ∧
    decodeAs .groupB 0b10 = .ok (.groupB true false) ∧
    decodeAs .sampleA 0b00000001 = .ok (.sampleA true) ∧
    decodeAs .sampleA 0b00000010 = .error (.fixedBitsSet .sampleA) ∧
    decodeAs .sampleB 0b00000110 = .ok (.sampleB false true true false) ∧
    decodeAs .sampleB 0b00010110 = .error (.fixedBitsSet .sampleB) ∧
    decodeAs .sampleBStride4 0b00010010 = .ok (.sampleBStride4 false true true false) ∧
    decodeAs .phase 0x15555555 = .ok (.phaseWord 0x15555555#32)

/-- Decode and encode agree: for every step row, from a list of bytes with anything behind it; for every data format,
at every value of every field. -/
def Obligations.DecodeOfEncodeIsTheRow : Prop :=
  (∀ (i : Instr) (rest : List Byte), i.format = .sel → i.selectedAs = i →
      decodeBytes (encodeBytes i ++ rest) = .ok (i, rest)) ∧
    (∀ i : Instr, i.format ≠ .none → i.format ≠ .sel → decodeAs i.format (encode i).word = .ok i)

/-- A step runs the decoded operation: at a clock edge the step that the select word selects, on the state in which the
event is taken and an edge without reset has released the block; where the host configures, CONFIGURE. -/
def Obligations.StepRunsTheDecodedOperation : Prop :=
  (∀ (s : State) (p : Pins) (i : Instr), s.nextEvent = .edge p → decodeSelect (selectWord s p) = i →
      step s = exec i
        { s with
          inputs := s.inputs.tail
          now := s.now + 1
          boot := if p.rst || heldInReset s.boot then s.boot else .running }) ∧
    (∀ (s : State) (r : StartupRequest), s.nextEvent = .configure r →
      step s = exec (.configure r) { s with inputs := s.inputs.tail, now := s.now + 1 })

/-- Step selection in the order of 42_step_ops.md section 1: reset, halted, the engine's turn, then the sink's error
before its accept. -/
def Obligations.StepSelectionOrder : Prop :=
  ∀ (s : State) (p : Pins), s.nextEvent = .edge p →
    ((p.rst = true ∨ heldInReset s.boot = true) → s.nextInstr = .reset) ∧
    (p.rst = false → heldInReset s.boot = false →
      (s.halt = true → s.nextInstr = .hold) ∧
      (s.halt = false → s.outv = false → s.nextInstr = .tick) ∧
      (s.halt = false → s.outv = true → p.outErr = true → s.nextInstr = .fail) ∧
      (s.halt = false → s.outv = true → p.outErr = false → p.outReady = true → s.nextInstr = .emit) ∧
      (s.halt = false → s.outv = true → p.outErr = false → p.outReady = false → s.nextInstr = .stall))

/-- No phase value, decision bit, sample value or configuration constant ever changes which step comes next: only the
two flags, the start-up condition and the environment do. -/
def Obligations.NextStepIgnoresData : Prop :=
  ∀ s t : State, s.halt = t.halt → s.outv = t.outv → s.boot = t.boot → s.inputs = t.inputs → s.now = t.now →
    s.nextInstr = t.nextInstr

/-! ### The phase accumulator -/

/-- ACC i: PHASE[i] becomes (PHASE[i] + FTW[i]) mod 2^32 and nothing else changes (R93). -/
def Obligations.AccAdvancesOnePhaseModulo : Prop :=
  ∀ (s : State) (i : Nat) (p : Word) (a : AccCfg), s.coherent = true → s.phase[i]? = some p →
    s.cfg.accs[i]? = some a →
    exec (.acc i) s =
      .next { s with phase := s.phase.set i (BitVec.ofNat 32 ((p.toNat + a.ftw.toNat) % 2 ^ 32)) }

/-- EFFPHASE j: e_j is (PHASE[SRC[j]] + DELTA[j]) mod 2^32 on the phases as they stand; no register changes. Where the
local value is kept is the model's choice (log entry 8). -/
def Obligations.EffphaseAddsTheOffsetModulo : Prop :=
  ∀ (s : State) (j : Nat) (c : ChanCfg) (p : Word), s.coherent = true → s.cfg.chans[j]? = some c →
    s.phase[c.src]? = some p →
    exec (.effphase j) s =
      .next { s with work := { s.work with
        eff := s.work.eff.set j (BitVec.ofNat 32 ((p.toNat + c.delta.toNat) % 2 ^ 32)) } }

/-- A micro-operation on an accumulator or a channel that the configuration does not have stops by name, and each of the
six refuses a state whose configuration is not well-formed or whose registers have not its shape (log entry 9). -/
def Obligations.MicroOperationsStopByName : Prop :=
  (∀ (s : State) (i : Nat), s.coherent = true → s.cfg.nacc ≤ i →
      exec (.acc i) s = .fault (.noSuchAccumulator i)) ∧
    (∀ (s : State) (j : Nat), s.coherent = true → s.cfg.nch ≤ j →
      exec (.effphase j) s = .fault (.noSuchChannel j) ∧ exec (.decide j) s = .fault (.noSuchChannel j)) ∧
    (∀ (s : State) (i : Instr), s.coherent = false → i.selectedAs = .tick →
      exec i s = .refused .illFormedConfiguration)

/-- The closed form of the phase: k steps of any kind but RESET and CONFIGURE add to PHASE[i] the tuning word once for
each TICK among them, whatever EMIT and STALL steps stand in between. -/
def Obligations.PhaseClosedForm : Prop :=
  ∀ (k : Nat) (s t : State), runSteps k s = .next t → keepsRunning (trace k s) = true →
    ∀ (i : Nat) (p : Word) (a : AccCfg), s.phase[i]? = some p → s.cfg.accs[i]? = some a →
      t.phase[i]? =
        some (BitVec.ofNat 32 ((p.toNat + (trace k s).count .tick * a.ftw.toNat) % 2 ^ 32))

/-- The period of the phase in a run: after k steps of any kind but RESET and CONFIGURE, PHASE[i] has the value it started
from exactly when 2^32 / gcd(FTW, 2^32) divides the number of TICKs among them (10_state.md section 8, derived there). -/
def Obligations.PhasePeriod : Prop :=
  ∀ (k : Nat) (s t : State), runSteps k s = .next t → keepsRunning (trace k s) = true →
    ∀ (i : Nat) (p : Word) (a : AccCfg), s.phase[i]? = some p → s.cfg.accs[i]? = some a →
      (t.phase[i]? = some p ↔ 2 ^ 32 / Nat.gcd a.ftw.toNat (2 ^ 32) ∣ (trace k s).count .tick)

/-! ### The sample-bit packer -/

/-- F-BIT: the decision bit is 1 exactly when e >= 2^31, and it is bit 31 (R66). -/
def Obligations.DecisionIsTheTopHalfAndBit31 : Prop :=
  ∀ e : Word, (decideBit e = true ↔ 2 ^ 31 ≤ e.toNat) ∧ decideBit e = e.getLsbD 31

/-- DECIDE j: b_j is 1 exactly when e_j >= 2^31; no register changes. Where the local values are kept is the model's
choice (log entry 8). -/
def Obligations.DecideTakesTheTopHalf : Prop :=
  ∀ (s : State) (j : Nat) (e : Word), s.coherent = true → s.work.eff[j]? = some e →
    exec (.decide j) s =
      .next { s with work := { s.work with bits := s.work.bits.set j (decide (2 ^ 31 ≤ e.toNat)) } }

/-- An offset of half a cycle inverts the decision (30_encoding.md section 2, derived there). -/
def Obligations.HalfCycleOffsetComplements : Prop :=
  ∀ p : Word, decideBit (effectivePhase p 0x80000000#32) = !decideBit p

/-- F-GROUP: the group is the OR of b_j << POS[j] and lies below 2^STRIDE; CFG_A's is b_0; CFG_B's is (m << 1) | r
(R67). -/
def Obligations.GroupIsTheOrOfPlacedBits : Prop :=
  (∀ (c : Cfg) (bits : List Bool), c.wellFormed = true → bits.length = c.nch →
      (groupOf c.chans bits).toNat =
        (List.zipWith (fun (ch : ChanCfg) (b : Bool) => b.toNat <<< ch.pos) c.chans bits).foldr (· ||| ·) 0 ∧
      (groupOf c.chans bits).toNat < 2 ^ c.stride) ∧
    (∀ (f : Word) (r : Bool), (groupOf (cfgA f).chans [r]).toNat = r.toNat) ∧
    (∀ (f d : Word) (r m : Bool), (groupOf (cfgB f d).chans [r, m]).toNat = (m.toNat <<< 1) ||| r.toNat)

/-- GROUP as an operation: the OR of the decisions at their positions. Where the local values are kept is the model's
choice (log entry 8). -/
def Obligations.GroupComposesTheDecisions : Prop :=
  ∀ s : State, s.coherent = true →
    exec .group s =
      .next { s with work := { s.work with
        group := BitVec.ofNat 8
          ((List.zipWith (fun (ch : ChanCfg) (b : Bool) => b.toNat <<< ch.pos) s.cfg.chans s.work.bits).foldr
            (· ||| ·) 0) } }

/-- PACK's formula: ((SAMPLE << STRIDE) | g) mod 256 (R115). -/
def Obligations.PackedIsShiftThenOr : Prop :=
  ∀ (stride : Nat) (sample g : Byte),
    (packed stride sample g).toNat = ((sample.toNat <<< stride) ||| g.toNat) % 256

/-- PACK as an operation; SAMPLE itself is not changed. Where the local value is kept is the model's choice (log entry
8). -/
def Obligations.PackShiftsThenOrs : Prop :=
  ∀ s : State, s.coherent = true →
    exec .pack s =
      .next { s with work := { s.work with
        packed := BitVec.ofNat 8 (((s.sample.toNat <<< s.cfg.stride) ||| s.work.group.toNat) % 256) } }

/-- COMPLETE: the last tick of a period hands the packed value over and starts the next period; any other stores it and
counts the tick. The tick's local values end here (log entry 8). -/
def Obligations.CompleteCountsOrHandsOver : Prop :=
  ∀ s : State, s.coherent = true → s.outv = false →
    exec .complete s =
      if s.sub = s.cfg.nsub - 1 then
        .next { s with out := s.work.packed, outv := true, sample := 0, sub := 0, work := Work.clear s.cfg.nch }
      else .next { s with sample := s.work.packed, sub := s.sub + 1, work := Work.clear s.cfg.nch }

/-- In a well-formed configuration the shift-and-OR of a period's groups, done tick by tick modulo 256, is the sum of
the groups at their own places, and every group lies below 2^STRIDE (30_encoding.md R68, derived there). -/
def Obligations.PackedPeriodIsTheSum : Prop :=
  ∀ c : Cfg, c.wellFormed = true →
    (∀ phases : Nat → Nat, groupNumber phases c.chans < 2 ^ c.stride) ∧
      ∀ g : Nat → Nat, (∀ t, g t < 2 ^ c.stride) →
        packedNumber c.stride g c.nsub = summedNumber c.stride c.nsub g

/-! ### TICK -/

/-- TICK: every accumulator advances modulo 2^32; the sample is shifted and the group decided on the NEW phases is ORed
in; the last tick of the period hands it over, any other counts. Nothing else that the spec calls state changes
(42_step_ops.md section 2). Deciding on the new phases is the spec's inference D7 (log entry 21); the hand-over is D11, D12
and D23. -/
def Obligations.TickAdvancesDecidesPacksCounts : Prop :=
  ∀ s : State, s.coherent = true → s.halt = false → s.outv = false →
    ∃ t : State, exec .tick s = .next t ∧
      t.phase.length = s.phase.length ∧
      (∀ (i : Nat) (p : Word) (a : AccCfg), s.phase[i]? = some p → s.cfg.accs[i]? = some a →
        t.phase[i]? = some (BitVec.ofNat 32 ((p.toNat + a.ftw.toNat) % 2 ^ 32))) ∧
      (let g := groupNumber (fun i => (t.phase.getD i 0).toNat) s.cfg.chans
       let v := ((s.sample.toNat <<< s.cfg.stride) ||| g) % 256
       if s.sub = s.cfg.nsub - 1 then t.out.toNat = v ∧ t.outv = true ∧ t.sample = 0 ∧ t.sub = 0
       else t.out = s.out ∧ t.outv = s.outv ∧ t.sample.toNat = v ∧ t.sub = s.sub + 1) ∧
      t = { s with phase := t.phase, sample := t.sample, sub := t.sub, out := t.out, outv := t.outv, work := t.work }

/-- TICK is its micro-operations one after the other, in the order of 42_step_ops.md section 2, from every state, the
refused ones too (the micro-operations as operations of their own are the model's, log entry 8). -/
def Obligations.MicroProgramIsTick : Prop :=
  ∀ s : State, runInstrs (microProgram s.cfg) s = exec .tick s

/-- Variant A's byte: one tick from the start of a period offers a byte whose bit 0 is the decision of the new phase and
whose other bits are zero (30_encoding.md section 3). That the decision is of the new phase is the spec's inference D7 (log
entry 21). -/
def Obligations.VariantAByteLayout : Prop :=
  ∀ (f : Word) (s : State), s.cfg = cfgA f → s.Inv → heldInReset s.boot = false → s.halt = false → s.outv = false →
    ∃ t : State, exec .tick s = .next t ∧ t.outv = true ∧
      t.out.toNat = (encode (.sampleA (decide (2 ^ 31 ≤ (t.phase.getD 0 0).toNat)))).word ∧
      (t.out = 0x00#8 ∨ t.out = 0x01#8)

/-- Variant B's byte: two ticks from the start of a period offer the byte 0000 m1 r1 m2 r2, and with STRIDE = 4 the byte
00 m1 r1 00 m2 r2 (the spec's reading of a conflict, D6, log entry 14). That m and r are read from the phase after each
tick's update is the spec's inference D7 (log entry 21). -/
def Obligations.VariantBByteLayout : Prop :=
  ∀ (f d : Word) (s : State), s.Inv → heldInReset s.boot = false → s.halt = false → s.outv = false → s.sub = 0 →
    let r := fun (u : State) => decide (2 ^ 31 ≤ (u.phase.getD 0 0).toNat)
    let m := fun (u : State) => decide (2 ^ 31 ≤ ((u.phase.getD 0 0).toNat + d.toNat) % 2 ^ 32)
    (s.cfg = cfgB f d →
      ∃ t u : State, exec .tick s = .next t ∧ exec .tick t = .next u ∧ t.outv = false ∧ u.outv = true ∧
        u.out.toNat = (encode (.sampleB (m t) (r t) (m u) (r u))).word) ∧
    (s.cfg = cfgBStride4 f d →
      ∃ t u : State, exec .tick s = .next t ∧ exec .tick t = .next u ∧ t.outv = false ∧ u.outv = true ∧
        u.out.toNat = (encode (.sampleBStride4 (m t) (r t) (m u) (r u))).word)

/-! ### The emitter, halting, reset -/

/-- EMIT: the byte of OUT is appended to STREAM, OUTV is cleared, nothing else changes (R133). -/
def Obligations.EmitAppendsOutAndClearsOutv : Prop :=
  ∀ s : State, s.halt = false → s.outv = true →
    exec .emit s = .next { s with stream := s.stream ++ [s.out], outv := false }

/-- STALL: no state changes; the byte stays offered (R134). -/
def Obligations.StallChangesNothing : Prop :=
  ∀ s : State, s.halt = false → s.outv = true →
    exec .stall s = .next s ∧ outPins s = ⟨s.out, true, false⟩

/-- FAIL: HALT is set and nothing else changes; STREAM keeps its bytes, OUT and OUTV their values (42_step_ops.md section
3). That the registers keep their values is no contract of the spec (U13, log entry 22). -/
def Obligations.FailHaltsAndAppendsNothing : Prop :=
  ∀ s : State, s.halt = false → s.outv = true → exec .fail s = .next { s with halt := true }

/-- HOLD: no state changes; nothing is offered and halted is driven (42_step_ops.md section 3; D14). -/
def Obligations.HoldChangesNothing : Prop :=
  ∀ s : State, s.halt = true → exec .hold s = .next s ∧ outPins s = ⟨s.out, false, true⟩

/-- RESET: every element of state takes its reset value and STREAM keeps what it has; a refused block stays in reset,
any other is ready to run (D4; the last clause is log entry 3). -/
def Obligations.ResetGivesTheStatedValues : Prop :=
  ∀ s : State, ∃ t : State, exec .reset s = .next t ∧
    t.phase = s.cfg.accs.map AccCfg.phaseInit ∧ t.sample = 0x00#8 ∧ t.sub = 0 ∧ t.out = 0x00#8 ∧ t.outv = false ∧
    t.halt = false ∧ t.stream = s.stream ∧ t.cfg = s.cfg ∧ t.inputs = s.inputs ∧ t.now = s.now ∧
    t.work = Work.clear s.cfg.nch ∧
    ((∃ what, s.boot = .refused what ∧ t.boot = .refused what) ∨
      ((∀ what, s.boot ≠ .refused what) ∧ t.boot = .inReset))

/-- The state right after reset: the values of 10_state.md section 7, phase zero in the model's configuration (CFG_A, log
entry 1), an empty stream. -/
def Obligations.ResetStateValues : Prop :=
  State.reset.phase = [0x00000000#32] ∧ State.reset.sample = 0x00#8 ∧ State.reset.sub = 0 ∧
    State.reset.out = 0x00#8 ∧ State.reset.outv = false ∧ State.reset.halt = false ∧ State.reset.stream = [] ∧
    State.reset.cfg = cfgA 0x15555555#32

/-- The error numbers: 0 after reset, 2 after FAIL on a block that was not refused, 1 after a ConfigurationError; after
FAIL the pins say halted and offer nothing (D15, D22). -/
def Obligations.ErrorNumbers : Prop :=
  errorCode (errorOf State.reset) = 0 ∧
    (∀ s t : State, (∀ what, s.boot ≠ .refused what) → exec .fail s = .next t →
      errorCode (errorOf t) = 2 ∧ (outPins t).halted = true ∧ (outPins t).outValid = false) ∧
    (∀ (s t : State) (what : ConfigField), t = s.raise (.configurationError what) → errorCode (errorOf t) = 1)

/-- HALT is sticky: once set, every clock edge without reset holds the block, so no tick, no byte and no change of any
element of its state happens until RESET (D14). -/
def Obligations.HaltHoldsUntilReset : Prop :=
  ∀ (s : State) (p : Pins), s.halt = true → s.nextEvent = .edge p → p.rst = false → heldInReset s.boot = false →
    step s = .next { s with inputs := s.inputs.tail, now := s.now + 1, boot := .running }

/-- An offered byte waits unchanged: while OUTV = 1, no step but RESET ticks, changes OUT, or touches a phase, SAMPLE or
SUB; the byte is delivered by EMIT alone (10_state.md section 4). At FAIL too OUT and OUTV keep
their values, which is no contract of the spec (U13, log entry 22). -/
def Obligations.OfferedByteIsKept : Prop :=
  ∀ s t : State, s.outv = true → step s = .next t → s.nextInstr ≠ .reset →
    s.nextInstr ≠ .tick ∧ t.out = s.out ∧ t.phase = s.phase ∧ t.sample = s.sample ∧ t.sub = s.sub ∧
      (t.outv = true ∨ (s.nextInstr = .emit ∧ t.stream = s.stream ++ [s.out]))

/-- Backpressure: n edges with a busy sink change nothing but the environment's own schedule (20_memory.md section 5). -/
def Obligations.BusySinkMakesNoProgress : Prop :=
  ∀ (n : Nat) (s : State) (rest : List EnvEvent), s.boot = .running → s.halt = false → s.outv = true →
    s.inputs = List.replicate n (.edge ⟨false, false, false⟩) ++ rest →
    runSteps n s = .next { s with inputs := rest, now := s.now + n }

/-- The sink's error is not looked at while nothing is offered and is not remembered: a TICK edge gives the same state
whatever the sink's pins say (60_exceptions.md section 3, D13). -/
def Obligations.SinkIgnoredDuringTick : Prop :=
  ∀ (s : State) (e r e' r' : Bool) (rest : List EnvEvent), s.outv = false → s.halt = false →
    heldInReset s.boot = false →
    step { s with inputs := .edge ⟨false, e, r⟩ :: rest } = step { s with inputs := .edge ⟨false, e', r'⟩ :: rest }

/-- EMIT and the TICK after it may be fused: the two in a row give what TICK alone gives with OUTV already cleared, and
the byte appended to STREAM (42_step_ops.md section 5, derived there). -/
def Obligations.EmitThenTickIsTickThenAppend : Prop :=
  ∀ s t : State, exec .tick { s with outv := false } = .next t →
    runInstrs [.emit, .tick] s = .next { t with stream := s.stream ++ [s.out] }

/-! ### The stream -/

/-- STREAM: only EMIT changes it, by appending OUT; nothing in the block reads it (R41). -/
def Obligations.StreamGrowsOnlyByEmit : Prop :=
  (∀ s t : State, step s = .next t →
      (s.nextInstr = .emit ∧ t.stream = s.stream ++ [s.out]) ∨ (s.nextInstr ≠ .emit ∧ t.stream = s.stream)) ∧
    (∀ (i : Instr) (s t : State) (x : List Byte), exec i s = .next t →
      ∃ y, exec i { s with stream := x } = .next { t with stream := y })

/-- The closed form of the stream: after a RESET of any state of a well-formed block, in mid-run too, in every run without
a further RESET or CONFIGURE, whatever the sink answers and however long it stalls, the bytes delivered before the RESET
stay, and the n-th byte after them, if it exists, is the sample of ticks n*NSUB + 1 to (n + 1)*NSUB since that RESET. That
each of these samples is decided on the phases after the update is the spec's inference D7 (R98), log entry 21. -/
def Obligations.StreamClosedForm : Prop :=
  ∀ (s r t : State) (k : Nat), s.cfg.wellFormed = true → exec .reset s = .next r →
    runSteps k r = .next t → keepsRunning (trace k r) = true →
    s.stream <+: t.stream ∧
      ∀ (n : Nat) (b : Byte), t.stream[s.stream.length + n]? = some b → b.toNat = byteAt s.cfg n

/-- Every tick is accounted for: after a RESET of any state of a well-formed block, in mid-run too, the ticks since that
RESET are NSUB for each byte delivered since, NSUB more for a byte that is waiting, and SUB. -/
def Obligations.TicksAreAccountedFor : Prop :=
  ∀ (s r t : State) (k : Nat), s.cfg.wellFormed = true → exec .reset s = .next r →
    runSteps k r = .next t → keepsRunning (trace k r) = true →
    ∃ m : Nat, t.stream.length = s.stream.length + m ∧
      (trace k r).count .tick = s.cfg.nsub * (m + if t.outv then 1 else 0) + t.sub

/-- The loop: with a sink that answers busy ws[n] times before it takes byte n, a run from reset is NSUB TICKs, ws[n]
STALLs and one EMIT for each n, and delivers one byte for each. -/
def Obligations.LoopIsTicksStallsEmit : Prop :=
  ∀ (c : Cfg) (ws : List Nat) (e r : Bool) (rest : List EnvEvent), c.wellFormed = true →
    let period := fun (w : Nat) =>
      List.replicate c.nsub (EnvEvent.edge ⟨false, e, r⟩) ++ List.replicate w (.edge ⟨false, false, false⟩) ++
        [.edge ⟨false, false, true⟩]
    let s := State.resetOf c (ws.flatMap period ++ rest)
    let k := (ws.flatMap period).length
    trace k s = ws.flatMap (fun w => List.replicate c.nsub .tick ++ List.replicate w .stall ++ [.emit]) ∧
      ∃ t : State, runSteps k s = .next t ∧ t.stream.length = ws.length ∧ t.inputs = rest

/-- The same configuration from the same start reproduces the same bytes: after a RESET of any two states of one
well-formed configuration (a block in mid-run and restarted, or two blocks), whatever their environments answer, the bytes
delivered since the one RESET begin like the bytes delivered since the other. -/
def Obligations.RestartReproducesTheStream : Prop :=
  ∀ (s s' r r' t t' : State) (k k' : Nat), s.cfg.wellFormed = true → s'.cfg = s.cfg →
    exec .reset s = .next r → runSteps k r = .next t → keepsRunning (trace k r) = true →
    exec .reset s' = .next r' → runSteps k' r' = .next t' → keepsRunning (trace k' r') = true →
    t.stream.drop s.stream.length <+: t'.stream.drop s'.stream.length ∨
      t'.stream.drop s'.stream.length <+: t.stream.drop s.stream.length

/-- A sink that closes and stays closed is noticed at the next emit attempt: after the ticks left in the period, then
FAIL; no byte is appended, and after it the block only holds (42_step_ops.md section 3, 70_reset_and_hazards.md section
3). -/
def Obligations.ClosedSinkIsNoticedAtTheNextEmit : Prop :=
  ∀ (s : State) (r : Bool) (n : Nat) (rest : List EnvEvent), s.Inv → heldInReset s.boot = false → s.halt = false →
    let ticks := if s.outv then 0 else s.cfg.nsub - s.sub
    s.inputs = List.replicate (ticks + 1 + n) (.edge ⟨false, true, r⟩) ++ rest →
    trace (ticks + 1 + n) s = List.replicate ticks .tick ++ [.fail] ++ List.replicate n .hold ∧
      ∃ t, runSteps (ticks + 1 + n) s = .next t ∧ t.halt = true ∧ t.stream = s.stream

/-! ### Invariants -/

/-- Every step keeps the invariant: a well-formed configuration and, unless the block waits for its start-up reset or
was refused, registers in shape (00_scope.md section 4, 10_state.md sections 2 and 3). -/
def Obligations.StepKeepsInvariant : Prop :=
  ∀ s t : State, s.Inv → step s = .next t → t.Inv

/-- The invariant holds at reset, for every well-formed configuration and for the model's own. -/
def Obligations.ResetMeetsInvariant : Prop :=
  State.reset.Inv ∧ ∀ (c : Cfg) (inputs : List EnvEvent), c.wellFormed = true → (State.resetOf c inputs).Inv

/-- A step of the machine from a state that meets the invariant never faults, and is refused only when the host
configures a running block: the block itself has no fault (60_exceptions.md section 1). -/
def Obligations.StepNeverStopsButOnReconfiguration : Prop :=
  ∀ s : State, s.Inv →
    (∃ t, step s = .next t) ∨
      (s.boot = .running ∧ (∃ r, s.nextEvent = .configure r) ∧ step s = .refused .reconfiguredWhileRunning)

/-- The unused bits of every sample are 0, from reset on and through every step: SAMPLE, OUT and each byte delivered have
bits only at the decision positions of the layout, which are bit 0 in CFG_A, bits 3 to 0 in CFG_B, bits 5, 4, 1, 0 with
STRIDE = 4 (R71). -/
def Obligations.UnusedBitsStayZero : Prop :=
  (∀ s t : State, s.Inv →
      (heldInReset s.boot = false →
        unusedBitsZero s.cfg s.sub s.sample ∧ unusedBitsZero s.cfg s.cfg.nsub s.out) →
      step s = .next t →
      (heldInReset t.boot = false →
        unusedBitsZero t.cfg t.sub t.sample ∧ unusedBitsZero t.cfg t.cfg.nsub t.out) ∧
      (t.stream = s.stream ∨ ∃ b, t.stream = s.stream ++ [b] ∧ unusedBitsZero s.cfg s.cfg.nsub b)) ∧
    (∀ (c : Cfg) (inputs : List EnvEvent),
      unusedBitsZero c 0 (State.resetOf c inputs).sample ∧ unusedBitsZero c c.nsub (State.resetOf c inputs).out) ∧
    (∀ f : Word, layoutMask (cfgA f) (cfgA f).nsub = 0b00000001#8) ∧
    (∀ f d : Word, layoutMask (cfgB f d) (cfgB f d).nsub = 0b00001111#8) ∧
    (∀ f d : Word, layoutMask (cfgBStride4 f d) (cfgBStride4 f d).nsub = 0b00110011#8)

/-- The configuration of a running block never changes: no step of a running block changes it, whatever the environment
does, and a run changes it only where the host configures (20_memory.md section 6). -/
def Obligations.RunningConfigurationIsConstant : Prop :=
  (∀ s t : State, s.boot = .running → step s = .next t → t.cfg = s.cfg) ∧
    ∀ (k : Nat) (s t : State), runSteps k s = .next t → (∀ i ∈ trace k s, ∀ r, i ≠ .configure r) → t.cfg = s.cfg

/-- Blocks side by side share nothing: a step of one leaves every other as it was and does not depend on them. That a bank
is a list of states, stepped one at a time, is the model's choice (log entry 23). -/
def Obligations.BlocksShareNothing : Prop :=
  (∀ (k : Nat) (bank bank' : List State), stepAt k bank = .next bank' →
      bank'.length = bank.length ∧ ∀ m, m ≠ k → bank'[m]? = bank[m]?) ∧
    (∀ (k : Nat) (a b a' : List State) (s : State), a[k]? = some s → b[k]? = some s → stepAt k a = .next a' →
      ∃ b', stepAt k b = .next b' ∧ b'[k]? = a'[k]?)

/-! ### CONFIGURE -/

/-- The tuning number is the nearest integer to reference_frequency * 2^32 / sample_rate, and the even one at an exact
half (the tie rule is D8). -/
def Obligations.TuningNumberIsNearest : Prop :=
  ∀ f rate : Rat, 0 ≤ f → 0 < rate →
    |(tuningNumber f rate : Rat) - f * 2 ^ 32 / rate| ≤ 1 / 2 ∧
      (|(tuningNumber f rate : Rat) - f * 2 ^ 32 / rate| = 1 / 2 → tuningNumber f rate % 2 = 0)

/-- A good request gives the configuration: every tuning word within half a step of the exact quotient, every other
field as requested; no register of the block changes (40_accumulate.md section 1; D8, D9, D17; log entries 3 and 5). -/
def Obligations.ConfigureBuildsTheConfiguration : Prop :=
  ∀ (s : State) (req : StartupRequest) (rate : Rat), s.boot ≠ .running → req.sampleRate = .finite rate → 0 < rate →
    (∀ a ∈ req.accs, 0 ≤ a.phaseInit ∧ a.phaseInit < 2 ^ 32 ∧
      ∃ f : Rat, a.referenceFrequency = .finite f ∧ 0 ≤ f ∧ f * 2 ^ 32 / rate < 2 ^ 32 - 1 / 2) →
    (∀ ch ∈ req.chans, 0 ≤ ch.delta ∧ ch.delta < 2 ^ 32 ∧ 0 ≤ ch.src ∧ ch.src < req.accs.length ∧ 0 ≤ ch.pos ∧
      ch.pos < req.stride) →
    (req.chans.map ChanRequest.pos).Nodup → req.accs ≠ [] → req.chans ≠ [] → 1 ≤ req.nsub → 1 ≤ req.stride →
    req.nsub * req.stride ≤ 8 →
    ∃ c : Cfg, exec (.configure req) s = .next { s with cfg := c, boot := .configured } ∧ c.wellFormed = true ∧
      (c.nsub : Int) = req.nsub ∧ (c.stride : Int) = req.stride ∧ c.accs.length = req.accs.length ∧
      c.chans.length = req.chans.length ∧
      (∀ (i : Nat) (a : AccRequest) (f : Rat), req.accs[i]? = some a → a.referenceFrequency = .finite f →
        ∃ ac, c.accs[i]? = some ac ∧ |(ac.ftw.toNat : Rat) - f * 2 ^ 32 / rate| ≤ 1 / 2 ∧
          (ac.phaseInit.toNat : Int) = a.phaseInit) ∧
      (∀ (j : Nat) (ch : ChanRequest), req.chans[j]? = some ch →
        ∃ cc, c.chans[j]? = some cc ∧ (cc.src : Int) = ch.src ∧ (cc.delta.toNat : Int) = ch.delta ∧
          (cc.pos : Int) = ch.pos)

/-- A bad sample rate or frequency is refused by name, the rate first: a rate that is not a finite number above zero; a
frequency that is not a finite number, or negative, or whose quotient rounds above 2^32 - 1 (D9). No register of the
block changes and it is kept in reset; that this is a next state is the model's choice (log entries 3 and 17). -/
def Obligations.ConfigureRefusesBadRates : Prop :=
  ∀ (s : State) (req : StartupRequest), s.boot ≠ .running →
    ((req.sampleRate = .notFinite ∨ ∃ q : Rat, req.sampleRate = .finite q ∧ q ≤ 0) →
      exec (.configure req) s = .next { s with boot := .refused .sampleRate }) ∧
    (∀ rate : Rat, req.sampleRate = .finite rate → 0 < rate →
      (∃ a ∈ req.accs, a.referenceFrequency = .notFinite ∨
        ∃ f : Rat, a.referenceFrequency = .finite f ∧ (f < 0 ∨ 2 ^ 32 - 1 / 2 ≤ f * 2 ^ 32 / rate)) →
      exec (.configure req) s = .next { s with boot := .refused .referenceFrequency })

/-- A request whose rates are good and whose rest breaks WF1 to WF5 is refused, naming one of the bad fields. Which one,
where several are bad, is free; which fields of a failing relation count as bad (SRC and not NACC, POS and not STRIDE, NSUB
and STRIDE both) is the model's choice (log entry 6). That the refusal is a next state in which the block is kept in reset is the
model's choice (log entries 3 and 17). -/
def Obligations.ConfigureRefusesIllFormedRest : Prop :=
  ∀ (s : State) (req : StartupRequest) (rate : Rat), s.boot ≠ .running → req.sampleRate = .finite rate → 0 < rate →
    (∀ a ∈ req.accs, ∃ f : Rat, a.referenceFrequency = .finite f ∧ 0 ≤ f ∧ f * 2 ^ 32 / rate < 2 ^ 32 - 1 / 2) →
    (req.accs = [] ∨ req.chans = [] ∨ req.nsub < 1 ∨ req.stride < 1 ∨
      (∃ a ∈ req.accs, a.phaseInit < 0 ∨ 2 ^ 32 ≤ a.phaseInit) ∨
      (∃ ch ∈ req.chans, ch.delta < 0 ∨ 2 ^ 32 ≤ ch.delta ∨ ch.src < 0 ∨ (req.accs.length : Int) ≤ ch.src ∨
        ch.pos < 0 ∨ req.stride ≤ ch.pos) ∨
      ¬ (req.chans.map ChanRequest.pos).Nodup ∨ 8 < req.nsub * req.stride) →
    ∃ what, exec (.configure req) s = .next { s with boot := .refused what } ∧
      ((what = .nacc ∧ req.accs = []) ∨ (what = .nch ∧ req.chans = []) ∨
        (what = .nsub ∧ (req.nsub < 1 ∨ 8 < req.nsub * req.stride)) ∨
        (what = .stride ∧ (req.stride < 1 ∨ 8 < req.nsub * req.stride)) ∨
        (what = .phaseInit ∧ ∃ a ∈ req.accs, a.phaseInit < 0 ∨ 2 ^ 32 ≤ a.phaseInit) ∨
        (what = .delta ∧ ∃ ch ∈ req.chans, ch.delta < 0 ∨ 2 ^ 32 ≤ ch.delta) ∨
        (what = .src ∧ ∃ ch ∈ req.chans, ch.src < 0 ∨ (req.accs.length : Int) ≤ ch.src) ∨
        (what = .pos ∧ ((∃ ch ∈ req.chans, ch.pos < 0 ∨ req.stride ≤ ch.pos) ∨
          ¬ (req.chans.map ChanRequest.pos).Nodup)))

/-- CONFIGURE on a running block is refused by name (D17, log entry 7). -/
def Obligations.ConfigureRefusedWhileRunning : Prop :=
  ∀ (s : State) (req : StartupRequest), s.boot = .running →
    exec (.configure req) s = .refused .reconfiguredWhileRunning

/-- After a ConfigurationError the block never leaves reset: every clock edge performs RESET, whatever its pins say; no
TICK happens and no byte is written (60_exceptions.md section 1; log entry 3). -/
def Obligations.RefusedBlockNeverLeavesReset : Prop :=
  ∀ (k : Nat) (s : State) (what : ConfigField), s.boot = .refused what → k ≤ s.inputs.length →
    (∀ e ∈ s.inputs, ∃ p, e = .edge p) →
    trace k s = List.replicate k .reset ∧
      ∃ t, runSteps k s = .next t ∧ t.boot = .refused what ∧ t.stream = s.stream

/-! ### Data formats -/

/-- The seven data-format rows are layouts and no operations: each is refused by its own name (30_encoding.md section 5,
log entry 11). -/
def Obligations.DataFormatsAreRefused : Prop :=
  ∀ (i : Instr) (s : State), i.format ≠ .none → i.format ≠ .sel → exec i s = .refused (.dataFormat i.format)
end

