-- ==== Sys2Proof/Laws/State.lean ====
section
/-!
SUPPORT. For each named operation, what it leaves in each field of the state; all by rfl, all simp lemmas, so that no
proof unfolds a record update.
-/

namespace Sys2Proof.Machine

@[simp] theorem accOne_cfg (s : State) (i : Nat) : (s.accOne i).cfg = s.cfg := rfl
@[simp] theorem accOne_phase (s : State) (i : Nat) : (s.accOne i).phase = s.phase.set i (accSum (s.readPhase i) (ftwOf s.cfg i)) := rfl
@[simp] theorem accOne_sample (s : State) (i : Nat) : (s.accOne i).sample = s.sample := rfl
@[simp] theorem accOne_sub (s : State) (i : Nat) : (s.accOne i).sub = s.sub := rfl
@[simp] theorem accOne_out (s : State) (i : Nat) : (s.accOne i).out = s.out := rfl
@[simp] theorem accOne_outv (s : State) (i : Nat) : (s.accOne i).outv = s.outv := rfl
@[simp] theorem accOne_halt (s : State) (i : Nat) : (s.accOne i).halt = s.halt := rfl
@[simp] theorem accOne_stream (s : State) (i : Nat) : (s.accOne i).stream = s.stream := rfl
@[simp] theorem accOne_boot (s : State) (i : Nat) : (s.accOne i).boot = s.boot := rfl
@[simp] theorem accOne_inputs (s : State) (i : Nat) : (s.accOne i).inputs = s.inputs := rfl
@[simp] theorem accOne_now (s : State) (i : Nat) : (s.accOne i).now = s.now := rfl
@[simp] theorem accOne_work (s : State) (i : Nat) : (s.accOne i).work = s.work := rfl

@[simp] theorem accAll_cfg (s : State) : s.accAll.cfg = s.cfg := rfl
@[simp] theorem accAll_phase (s : State) : s.accAll.phase = List.zipWith (fun p a => accSum p a.ftw) s.phase s.cfg.accs := rfl
@[simp] theorem accAll_sample (s : State) : s.accAll.sample = s.sample := rfl
@[simp] theorem accAll_sub (s : State) : s.accAll.sub = s.sub := rfl
@[simp] theorem accAll_out (s : State) : s.accAll.out = s.out := rfl
@[simp] theorem accAll_outv (s : State) : s.accAll.outv = s.outv := rfl
@[simp] theorem accAll_halt (s : State) : s.accAll.halt = s.halt := rfl
@[simp] theorem accAll_stream (s : State) : s.accAll.stream = s.stream := rfl
@[simp] theorem accAll_boot (s : State) : s.accAll.boot = s.boot := rfl
@[simp] theorem accAll_inputs (s : State) : s.accAll.inputs = s.inputs := rfl
@[simp] theorem accAll_now (s : State) : s.accAll.now = s.now := rfl
@[simp] theorem accAll_work (s : State) : s.accAll.work = s.work := rfl

@[simp] theorem effOne_cfg (s : State) (j : Nat) : (s.effOne j).cfg = s.cfg := rfl
@[simp] theorem effOne_phase (s : State) (j : Nat) : (s.effOne j).phase = s.phase := rfl
@[simp] theorem effOne_sample (s : State) (j : Nat) : (s.effOne j).sample = s.sample := rfl
@[simp] theorem effOne_sub (s : State) (j : Nat) : (s.effOne j).sub = s.sub := rfl
@[simp] theorem effOne_out (s : State) (j : Nat) : (s.effOne j).out = s.out := rfl
@[simp] theorem effOne_outv (s : State) (j : Nat) : (s.effOne j).outv = s.outv := rfl
@[simp] theorem effOne_halt (s : State) (j : Nat) : (s.effOne j).halt = s.halt := rfl
@[simp] theorem effOne_stream (s : State) (j : Nat) : (s.effOne j).stream = s.stream := rfl
@[simp] theorem effOne_boot (s : State) (j : Nat) : (s.effOne j).boot = s.boot := rfl
@[simp] theorem effOne_inputs (s : State) (j : Nat) : (s.effOne j).inputs = s.inputs := rfl
@[simp] theorem effOne_now (s : State) (j : Nat) : (s.effOne j).now = s.now := rfl
@[simp] theorem effOne_work (s : State) (j : Nat) : (s.effOne j).work = { s.work with eff := s.work.eff.set j (s.effOf (chanOf s.cfg j)) } := rfl

@[simp] theorem effAll_cfg (s : State) : s.effAll.cfg = s.cfg := rfl
@[simp] theorem effAll_phase (s : State) : s.effAll.phase = s.phase := rfl
@[simp] theorem effAll_sample (s : State) : s.effAll.sample = s.sample := rfl
@[simp] theorem effAll_sub (s : State) : s.effAll.sub = s.sub := rfl
@[simp] theorem effAll_out (s : State) : s.effAll.out = s.out := rfl
@[simp] theorem effAll_outv (s : State) : s.effAll.outv = s.outv := rfl
@[simp] theorem effAll_halt (s : State) : s.effAll.halt = s.halt := rfl
@[simp] theorem effAll_stream (s : State) : s.effAll.stream = s.stream := rfl
@[simp] theorem effAll_boot (s : State) : s.effAll.boot = s.boot := rfl
@[simp] theorem effAll_inputs (s : State) : s.effAll.inputs = s.inputs := rfl
@[simp] theorem effAll_now (s : State) : s.effAll.now = s.now := rfl
@[simp] theorem effAll_work (s : State) : s.effAll.work = { s.work with eff := s.cfg.chans.map s.effOf } := rfl

@[simp] theorem decideOne_cfg (s : State) (j : Nat) : (s.decideOne j).cfg = s.cfg := rfl
@[simp] theorem decideOne_phase (s : State) (j : Nat) : (s.decideOne j).phase = s.phase := rfl
@[simp] theorem decideOne_sample (s : State) (j : Nat) : (s.decideOne j).sample = s.sample := rfl
@[simp] theorem decideOne_sub (s : State) (j : Nat) : (s.decideOne j).sub = s.sub := rfl
@[simp] theorem decideOne_out (s : State) (j : Nat) : (s.decideOne j).out = s.out := rfl
@[simp] theorem decideOne_outv (s : State) (j : Nat) : (s.decideOne j).outv = s.outv := rfl
@[simp] theorem decideOne_halt (s : State) (j : Nat) : (s.decideOne j).halt = s.halt := rfl
@[simp] theorem decideOne_stream (s : State) (j : Nat) : (s.decideOne j).stream = s.stream := rfl
@[simp] theorem decideOne_boot (s : State) (j : Nat) : (s.decideOne j).boot = s.boot := rfl
@[simp] theorem decideOne_inputs (s : State) (j : Nat) : (s.decideOne j).inputs = s.inputs := rfl
@[simp] theorem decideOne_now (s : State) (j : Nat) : (s.decideOne j).now = s.now := rfl
@[simp] theorem decideOne_work (s : State) (j : Nat) : (s.decideOne j).work = { s.work with bits := s.work.bits.set j (decideBit (s.work.eff.getD j 0)) } := rfl

@[simp] theorem decideAll_cfg (s : State) : s.decideAll.cfg = s.cfg := rfl
@[simp] theorem decideAll_phase (s : State) : s.decideAll.phase = s.phase := rfl
@[simp] theorem decideAll_sample (s : State) : s.decideAll.sample = s.sample := rfl
@[simp] theorem decideAll_sub (s : State) : s.decideAll.sub = s.sub := rfl
@[simp] theorem decideAll_out (s : State) : s.decideAll.out = s.out := rfl
@[simp] theorem decideAll_outv (s : State) : s.decideAll.outv = s.outv := rfl
@[simp] theorem decideAll_halt (s : State) : s.decideAll.halt = s.halt := rfl
@[simp] theorem decideAll_stream (s : State) : s.decideAll.stream = s.stream := rfl
@[simp] theorem decideAll_boot (s : State) : s.decideAll.boot = s.boot := rfl
@[simp] theorem decideAll_inputs (s : State) : s.decideAll.inputs = s.inputs := rfl
@[simp] theorem decideAll_now (s : State) : s.decideAll.now = s.now := rfl
@[simp] theorem decideAll_work (s : State) : s.decideAll.work = { s.work with bits := s.work.eff.map decideBit } := rfl

@[simp] theorem groupBits_cfg (s : State) : s.groupBits.cfg = s.cfg := rfl
@[simp] theorem groupBits_phase (s : State) : s.groupBits.phase = s.phase := rfl
@[simp] theorem groupBits_sample (s : State) : s.groupBits.sample = s.sample := rfl
@[simp] theorem groupBits_sub (s : State) : s.groupBits.sub = s.sub := rfl
@[simp] theorem groupBits_out (s : State) : s.groupBits.out = s.out := rfl
@[simp] theorem groupBits_outv (s : State) : s.groupBits.outv = s.outv := rfl
@[simp] theorem groupBits_halt (s : State) : s.groupBits.halt = s.halt := rfl
@[simp] theorem groupBits_stream (s : State) : s.groupBits.stream = s.stream := rfl
@[simp] theorem groupBits_boot (s : State) : s.groupBits.boot = s.boot := rfl
@[simp] theorem groupBits_inputs (s : State) : s.groupBits.inputs = s.inputs := rfl
@[simp] theorem groupBits_now (s : State) : s.groupBits.now = s.now := rfl
@[simp] theorem groupBits_work (s : State) : s.groupBits.work = { s.work with group := groupOf s.cfg.chans s.work.bits } := rfl

@[simp] theorem packGroup_cfg (s : State) : s.packGroup.cfg = s.cfg := rfl
@[simp] theorem packGroup_phase (s : State) : s.packGroup.phase = s.phase := rfl
@[simp] theorem packGroup_sample (s : State) : s.packGroup.sample = s.sample := rfl
@[simp] theorem packGroup_sub (s : State) : s.packGroup.sub = s.sub := rfl
@[simp] theorem packGroup_out (s : State) : s.packGroup.out = s.out := rfl
@[simp] theorem packGroup_outv (s : State) : s.packGroup.outv = s.outv := rfl
@[simp] theorem packGroup_halt (s : State) : s.packGroup.halt = s.halt := rfl
@[simp] theorem packGroup_stream (s : State) : s.packGroup.stream = s.stream := rfl
@[simp] theorem packGroup_boot (s : State) : s.packGroup.boot = s.boot := rfl
@[simp] theorem packGroup_inputs (s : State) : s.packGroup.inputs = s.inputs := rfl
@[simp] theorem packGroup_now (s : State) : s.packGroup.now = s.now := rfl
@[simp] theorem packGroup_work (s : State) : s.packGroup.work = { s.work with packed := packed s.cfg.stride s.sample s.work.group } := rfl

@[simp] theorem streamWrite_cfg (s : State) (b : Byte) : (s.streamWrite b).cfg = s.cfg := rfl
@[simp] theorem streamWrite_phase (s : State) (b : Byte) : (s.streamWrite b).phase = s.phase := rfl
@[simp] theorem streamWrite_sample (s : State) (b : Byte) : (s.streamWrite b).sample = s.sample := rfl
@[simp] theorem streamWrite_sub (s : State) (b : Byte) : (s.streamWrite b).sub = s.sub := rfl
@[simp] theorem streamWrite_out (s : State) (b : Byte) : (s.streamWrite b).out = s.out := rfl
@[simp] theorem streamWrite_outv (s : State) (b : Byte) : (s.streamWrite b).outv = s.outv := rfl
@[simp] theorem streamWrite_halt (s : State) (b : Byte) : (s.streamWrite b).halt = s.halt := rfl
@[simp] theorem streamWrite_stream (s : State) (b : Byte) : (s.streamWrite b).stream = s.stream ++ [b] := rfl
@[simp] theorem streamWrite_boot (s : State) (b : Byte) : (s.streamWrite b).boot = s.boot := rfl
@[simp] theorem streamWrite_inputs (s : State) (b : Byte) : (s.streamWrite b).inputs = s.inputs := rfl
@[simp] theorem streamWrite_now (s : State) (b : Byte) : (s.streamWrite b).now = s.now := rfl
@[simp] theorem streamWrite_work (s : State) (b : Byte) : (s.streamWrite b).work = s.work := rfl

@[simp] theorem clearOutv_cfg (s : State) : s.clearOutv.cfg = s.cfg := rfl
@[simp] theorem clearOutv_phase (s : State) : s.clearOutv.phase = s.phase := rfl
@[simp] theorem clearOutv_sample (s : State) : s.clearOutv.sample = s.sample := rfl
@[simp] theorem clearOutv_sub (s : State) : s.clearOutv.sub = s.sub := rfl
@[simp] theorem clearOutv_out (s : State) : s.clearOutv.out = s.out := rfl
@[simp] theorem clearOutv_outv (s : State) : s.clearOutv.outv = false := rfl
@[simp] theorem clearOutv_halt (s : State) : s.clearOutv.halt = s.halt := rfl
@[simp] theorem clearOutv_stream (s : State) : s.clearOutv.stream = s.stream := rfl
@[simp] theorem clearOutv_boot (s : State) : s.clearOutv.boot = s.boot := rfl
@[simp] theorem clearOutv_inputs (s : State) : s.clearOutv.inputs = s.inputs := rfl
@[simp] theorem clearOutv_now (s : State) : s.clearOutv.now = s.now := rfl
@[simp] theorem clearOutv_work (s : State) : s.clearOutv.work = s.work := rfl

@[simp] theorem configure_cfg (s : State) (c : Cfg) : (s.configure c).cfg = c := rfl
@[simp] theorem configure_phase (s : State) (c : Cfg) : (s.configure c).phase = s.phase := rfl
@[simp] theorem configure_sample (s : State) (c : Cfg) : (s.configure c).sample = s.sample := rfl
@[simp] theorem configure_sub (s : State) (c : Cfg) : (s.configure c).sub = s.sub := rfl
@[simp] theorem configure_out (s : State) (c : Cfg) : (s.configure c).out = s.out := rfl
@[simp] theorem configure_outv (s : State) (c : Cfg) : (s.configure c).outv = s.outv := rfl
@[simp] theorem configure_halt (s : State) (c : Cfg) : (s.configure c).halt = s.halt := rfl
@[simp] theorem configure_stream (s : State) (c : Cfg) : (s.configure c).stream = s.stream := rfl
@[simp] theorem configure_boot (s : State) (c : Cfg) : (s.configure c).boot = .configured := rfl
@[simp] theorem configure_inputs (s : State) (c : Cfg) : (s.configure c).inputs = s.inputs := rfl
@[simp] theorem configure_now (s : State) (c : Cfg) : (s.configure c).now = s.now := rfl
@[simp] theorem configure_work (s : State) (c : Cfg) : (s.configure c).work = s.work := rfl

@[simp] theorem resetAll_cfg (s : State) : s.resetAll.cfg = s.cfg := rfl
@[simp] theorem resetAll_phase (s : State) : s.resetAll.phase = s.cfg.accs.map AccCfg.phaseInit := rfl
@[simp] theorem resetAll_sample (s : State) : s.resetAll.sample = 0x00#8 := rfl
@[simp] theorem resetAll_sub (s : State) : s.resetAll.sub = 0 := rfl
@[simp] theorem resetAll_out (s : State) : s.resetAll.out = 0x00#8 := rfl
@[simp] theorem resetAll_outv (s : State) : s.resetAll.outv = false := rfl
@[simp] theorem resetAll_halt (s : State) : s.resetAll.halt = false := rfl
@[simp] theorem resetAll_stream (s : State) : s.resetAll.stream = s.stream := rfl
@[simp] theorem resetAll_boot (s : State) : s.resetAll.boot = bootAfterReset s.boot := rfl
@[simp] theorem resetAll_inputs (s : State) : s.resetAll.inputs = s.inputs := rfl
@[simp] theorem resetAll_now (s : State) : s.resetAll.now = s.now := rfl
@[simp] theorem resetAll_work (s : State) : s.resetAll.work = Work.clear s.cfg.nch := rfl

@[simp] theorem advance_cfg (s : State) : s.advance.cfg = s.cfg := rfl
@[simp] theorem advance_phase (s : State) : s.advance.phase = s.phase := rfl
@[simp] theorem advance_sample (s : State) : s.advance.sample = s.sample := rfl
@[simp] theorem advance_sub (s : State) : s.advance.sub = s.sub := rfl
@[simp] theorem advance_out (s : State) : s.advance.out = s.out := rfl
@[simp] theorem advance_outv (s : State) : s.advance.outv = s.outv := rfl
@[simp] theorem advance_halt (s : State) : s.advance.halt = s.halt := rfl
@[simp] theorem advance_stream (s : State) : s.advance.stream = s.stream := rfl
@[simp] theorem advance_boot (s : State) : s.advance.boot = s.nextBoot := rfl
@[simp] theorem advance_inputs (s : State) : s.advance.inputs = s.inputs.tail := rfl
@[simp] theorem advance_now (s : State) : s.advance.now = s.now + 1 := rfl
@[simp] theorem advance_work (s : State) : s.advance.work = s.work := rfl

end Sys2Proof.Machine
end

