-- ==== Sys2Proof/Laws/WellFormed.lean ====
section
/-!
SUPPORT. Well-formedness of a configuration as propositions, WF1 to WF5 of R7, and what follows at once from it.
-/

namespace Sys2Proof

theorem wellFormed_iff (c : Cfg) :
    c.wellFormed = true ↔
      (1 ≤ c.nacc ∧ 1 ≤ c.nch ∧ 1 ≤ c.nsub ∧ 1 ≤ c.stride) ∧
      (∀ ch ∈ c.chans, ch.src < c.nacc) ∧
      ((∀ ch ∈ c.chans, ch.pos < c.stride) ∧ (c.chans.map ChanCfg.pos).Nodup) ∧
      c.nsub * c.stride ≤ 8 := by
  simp [Cfg.wellFormed, Cfg.wf1, Cfg.wf3, Cfg.wf4, Cfg.wf5, and_assoc]

theorem wellFormed_stride_le {c : Cfg} (h : c.wellFormed = true) : c.stride ≤ 8 := by
  obtain ⟨⟨-, -, hn, -⟩, -, -, h5⟩ := (wellFormed_iff c).1 h
  exact le_trans (Nat.le_mul_of_pos_left _ hn) h5

theorem cfgA_wellFormed (f : Word) : (cfgA f).wellFormed = true := by
  rw [wellFormed_iff]; simp [cfgA, Cfg.nacc, Cfg.nch]

theorem cfgB_wellFormed (f d : Word) : (cfgB f d).wellFormed = true := by
  rw [wellFormed_iff]; simp [cfgB, Cfg.nacc, Cfg.nch]

theorem cfgBStride4_wellFormed (f d : Word) : (cfgBStride4 f d).wellFormed = true := by
  rw [wellFormed_iff]; simp [cfgB, cfgBStride4, Cfg.nacc, Cfg.nch]

end Sys2Proof
end

