-- ==== Sys2Proof/Laws/Ops.lean ====
section
/-!
SUPPORT. What each shared operation can do, said once: the guard of R7, the two endings of a tick (R118), taking an
error (R156), the shape of the tick's local values, and the environment's next event.
-/

namespace Sys2Proof.Machine

theorem coherent_iff (s : State) :
    s.coherent = true ↔ s.cfg.wellFormed = true ∧ s.phase.length = s.cfg.nacc ∧
      s.work.eff.length = s.cfg.nch ∧ s.work.bits.length = s.cfg.nch := by
  simp [State.coherent, and_assoc]

@[simp] theorem ifCoherent_true {s : State} (h : s.coherent = true) (r : Result) : s.ifCoherent r = r := by
  simp [State.ifCoherent, h]

@[simp] theorem ifCoherent_false {s : State} (h : s.coherent = false) (r : Result) :
    s.ifCoherent r = .refused .illFormedConfiguration := by
  simp [State.ifCoherent, h]

theorem ifCoherent_eq_next {s t : State} {r : Result} (h : s.ifCoherent r = .next t) :
    s.coherent = true ∧ r = .next t := by
  unfold State.ifCoherent at h
  split at h
  · exact ⟨‹_›, h⟩
  · cases h

/-- COMPLETE ends in one of two ways (R118). -/
theorem completeTick_cases (s : State) :
    (s.sub = s.cfg.nsub - 1 ∧ s.completeTick =
      { s with out := s.work.packed, outv := true, sample := 0x00#8, sub := 0, work := Work.clear s.cfg.nch }) ∨
    (s.sub ≠ s.cfg.nsub - 1 ∧ s.completeTick =
      { s with sample := s.work.packed, sub := s.sub + 1, work := Work.clear s.cfg.nch }) := by
  by_cases h : s.sub = s.cfg.nsub - 1 <;> simp [State.completeTick, periodEnds, h]

@[simp] theorem completeTick_cfg (s : State) : s.completeTick.cfg = s.cfg := by
  obtain ⟨-, h⟩ | ⟨-, h⟩ := completeTick_cases s <;> rw [h]
@[simp] theorem completeTick_phase (s : State) : s.completeTick.phase = s.phase := by
  obtain ⟨-, h⟩ | ⟨-, h⟩ := completeTick_cases s <;> rw [h]
@[simp] theorem completeTick_halt (s : State) : s.completeTick.halt = s.halt := by
  obtain ⟨-, h⟩ | ⟨-, h⟩ := completeTick_cases s <;> rw [h]
@[simp] theorem completeTick_stream (s : State) : s.completeTick.stream = s.stream := by
  obtain ⟨-, h⟩ | ⟨-, h⟩ := completeTick_cases s <;> rw [h]
@[simp] theorem completeTick_boot (s : State) : s.completeTick.boot = s.boot := by
  obtain ⟨-, h⟩ | ⟨-, h⟩ := completeTick_cases s <;> rw [h]
@[simp] theorem completeTick_inputs (s : State) : s.completeTick.inputs = s.inputs := by
  obtain ⟨-, h⟩ | ⟨-, h⟩ := completeTick_cases s <;> rw [h]
@[simp] theorem completeTick_now (s : State) : s.completeTick.now = s.now := by
  obtain ⟨-, h⟩ | ⟨-, h⟩ := completeTick_cases s <;> rw [h]
@[simp] theorem completeTick_work (s : State) : s.completeTick.work = Work.clear s.cfg.nch := by
  obtain ⟨-, h⟩ | ⟨-, h⟩ := completeTick_cases s <;> rw [h]

@[simp] theorem raise_ioError (s : State) : s.raise .ioError = { s with halt := true } := rfl
@[simp] theorem raise_configurationError (s : State) (what : ConfigField) :
    s.raise (.configurationError what) = { s with boot := .refused what } := rfl

@[simp] theorem clear_eff_length (n : Nat) : (Work.clear n).eff.length = n := by simp [Work.clear]
@[simp] theorem clear_bits_length (n : Nat) : (Work.clear n).bits.length = n := by simp [Work.clear]

@[simp] theorem nextEvent_cons {s : State} {e : EnvEvent} {es : List EnvEvent} (h : s.inputs = e :: es) :
    s.nextEvent = e := by
  simp [State.nextEvent, h]

theorem nextInstr_edge {s : State} {p : Pins} (h : s.nextEvent = .edge p) :
    s.nextInstr = decodeSelect (selectWord s p) := by
  simp [State.nextInstr, h]

theorem nextInstr_configure {s : State} {r : StartupRequest} (h : s.nextEvent = .configure r) :
    s.nextInstr = .configure r := by
  simp [State.nextInstr, h]

/-- The select word read back bit by bit: the order of R130. -/
theorem decodeSelect_selectWord (s : State) (p : Pins) :
    decodeSelect (selectWord s p) =
      if p.rst || heldInReset s.boot then .reset
      else if s.halt then .hold
      else if s.outv then
        (match sinkAnswer p with
         | .error => .fail
         | .accept => .emit
         | .busy => .stall)
      else .tick := by
  unfold selectWord sinkAnswer
  generalize (p.rst || heldInReset s.boot) = a
  generalize s.halt = b
  generalize s.outv = c
  generalize p.outErr = d
  generalize p.outReady = e
  revert a b c d e
  decide

end Sys2Proof.Machine
end

