-- ==== Sys2Proof/Laws/Exec.lean ====
section
/-!
SUPPORT. What each operation can do when it answers a next state, and what one step is: provers cite these instead of
unfolding exec and step.
-/

namespace Sys2Proof.Machine

/-- The state that TICK leaves (R131). -/
theorem exec_tick_next {s t : State} (h : exec .tick s = .next t) :
    s.coherent = true ∧ t = s.accAll.effAll.decideAll.groupBits.packGroup.completeTick := by
  obtain ⟨hc, h⟩ := ifCoherent_eq_next (s := s) h
  cases h
  exact ⟨hc, rfl⟩

theorem exec_tick_coherent {s : State} (h : s.coherent = true) :
    exec .tick s = .next s.accAll.effAll.decideAll.groupBits.packGroup.completeTick :=
  ifCoherent_true h _

/-- The steps that need no premise. -/
theorem exec_reset (s : State) : exec .reset s = .next s.resetAll := rfl
theorem exec_hold (s : State) : exec .hold s = .next s := rfl
theorem exec_stall (s : State) : exec .stall s = .next s := rfl
theorem exec_fail (s : State) : exec .fail s = .next { s with halt := true } := rfl
theorem exec_emit (s : State) : exec .emit s = .next { s with stream := s.stream ++ [s.out], outv := false } := rfl

/-- CONFIGURE answers a next state in one of two ways, and never on a running block. -/
theorem exec_configure_next {req : StartupRequest} {s t : State} (h : exec (.configure req) s = .next t) :
    s.boot ≠ .running ∧
      ((∃ what, configured req = .error what ∧ t = { s with boot := .refused what }) ∨
       (∃ c, configured req = .ok c ∧ t = { s with cfg := c, boot := .configured })) := by
  change execConfigure req s = .next t at h
  unfold execConfigure at h
  cases hb : s.boot <;> rw [hb] at h <;> cases hc : configured req <;> rw [hc] at h <;> cases h <;>
    simp [State.configure]

/-- The operations that the machine can select at a clock edge. -/
theorem decodeSelect_cases (w : SelWord) :
    decodeSelect w = .reset ∨ decodeSelect w = .hold ∨ decodeSelect w = .tick ∨ decodeSelect w = .fail ∨
      decodeSelect w = .emit ∨ decodeSelect w = .stall := by
  unfold decodeSelect
  repeat' split
  all_goals simp

theorem nextInstr_cases (s : State) :
    s.nextInstr = .reset ∨ s.nextInstr = .hold ∨ s.nextInstr = .tick ∨ s.nextInstr = .fail ∨
      s.nextInstr = .emit ∨ s.nextInstr = .stall ∨ ∃ r, s.nextInstr = .configure r := by
  cases h : s.nextEvent with
  | edge p =>
    rw [nextInstr_edge h]
    have := decodeSelect_cases (selectWord s p)
    tauto
  | configure r => simp [nextInstr_configure h]

theorem step_eq (s : State) : step s = exec s.nextInstr s.advance := rfl

@[simp] theorem andThen_next (s : State) (f : State → Result) : Result.andThen (.next s) f = f s := rfl
@[simp] theorem andThen_fault (e : Fault) (f : State → Result) : Result.andThen (.fault e) f = .fault e := rfl
@[simp] theorem andThen_refused (e : Refusal) (f : State → Result) : Result.andThen (.refused e) f = .refused e := rfl

theorem andThen_eq_next {r : Result} {f : State → Result} {t : State} (h : Result.andThen r f = .next t) :
    ∃ s, r = .next s ∧ f s = .next t := by
  cases r with
  | next s => exact ⟨s, rfl, h⟩
  | fault e => cases h
  | refused e => cases h

theorem runInstrs_append (is js : List Instr) (s : State) :
    runInstrs (is ++ js) s = Result.andThen (runInstrs is s) (runInstrs js) := by
  induction is generalizing s with
  | nil => rfl
  | cons i is ih =>
    simp only [List.cons_append, runInstrs]
    cases exec i s <;> simp [ih]

/-- The registers of a block in shape satisfy the guard of R7. -/
theorem Inv_coherent {s : State} (h : s.Inv) (hb : heldInReset s.boot = false) : s.coherent = true := by
  obtain ⟨hw, hs⟩ := h
  obtain ⟨h1, h2, -, -, -⟩ := hs hb
  simp [coherent_iff, hw, h1, h2]

end Sys2Proof.Machine
end

