-- ==== Sys2Proof/Laws/PerInstr.lean ====
section
/-!
SUPPORT. A statement for all rows of the table, made row by row: the encoder's word fits the row's width, and reading it
in the row's own format gives the row back (a micro-operation's word is TICK's; CONFIGURE has no word).
-/

namespace Sys2Proof.Laws.Encoding

/-- The word of a row fits its width and is read back as the row that its pattern stands for (R74). -/
def Statement (i : Instr) : Prop :=
  (encode i).word < 2 ^ (encode i).width ∧
    decodeAs i.format (encode i).word =
      (match i.format with
       | .none => .error .noWord
       | _ => .ok i.selectedAs)

theorem reset : Statement .reset := by unfold Statement; decide
theorem hold : Statement .hold := by unfold Statement; decide
theorem tick : Statement .tick := by unfold Statement; decide
theorem fail : Statement .fail := by unfold Statement; decide
theorem emit : Statement .emit := by unfold Statement; decide
theorem stall : Statement .stall := by unfold Statement; decide
theorem acc (i : Nat) : Statement (.acc i) :=
  ⟨Nat.two_pow_pos 5, (by decide : decodeAs .sel 0 = .ok .tick)⟩
theorem effphase (j : Nat) : Statement (.effphase j) :=
  ⟨Nat.two_pow_pos 5, (by decide : decodeAs .sel 0 = .ok .tick)⟩
theorem decide (j : Nat) : Statement (.decide j) :=
  ⟨Nat.two_pow_pos 5, (by decide : decodeAs .sel 0 = .ok .tick)⟩
theorem group : Statement .group := by unfold Statement; decide
theorem pack : Statement .pack := by unfold Statement; decide
theorem complete : Statement .complete := by unfold Statement; decide
theorem configure (req : StartupRequest) : Statement (.configure req) := ⟨by simp [encode], rfl⟩
theorem phaseWord (p : Word) : Statement (.phaseWord p) := by
  simp [Statement, encode, Instr.format, decodeAs, fitting, Instr.selectedAs, p.isLt]
theorem ftwWord (f : Word) : Statement (.ftwWord f) := by
  simp [Statement, encode, Instr.format, decodeAs, fitting, Instr.selectedAs, f.isLt]
theorem deltaWord (d : Word) : Statement (.deltaWord d) := by
  simp [Statement, encode, Instr.format, decodeAs, fitting, Instr.selectedAs, d.isLt]
theorem groupB (m r : Bool) : Statement (.groupB m r) := by
  unfold Statement; revert m r; decide
theorem sampleA (r : Bool) : Statement (.sampleA r) := by
  unfold Statement; revert r; decide
theorem sampleB (m1 r1 m2 r2 : Bool) : Statement (.sampleB m1 r1 m2 r2) := by
  unfold Statement; revert m1 r1 m2 r2; decide
theorem sampleBStride4 (m1 r1 m2 r2 : Bool) : Statement (.sampleBStride4 m1 r1 m2 r2) := by
  unfold Statement; revert m1 r1 m2 r2; decide

end Sys2Proof.Laws.Encoding
end

