-- ==== Sys2Proof/Tests/Slice0.lean ====
section
/-!
SUPPORT. Tests: the checks of well-formedness with a term that each refuses, words written out from 30_encoding.md,
single steps from the vectors of 95_test_vectors.md, and for every statement with hypotheses a concrete case that meets
them all.
-/

namespace Sys2Proof.Tests

open Sys2Proof.Machine

/-! ### Helpers -/

/-- A block out of its start-up sequence, at a clock edge with the pins p. -/
def blockAt (cfg : Cfg) (phase : List Word) (sample : Byte) (sub : Nat) (out : Byte) (outv halt : Bool)
    (stream : List Byte) (p : Pins) : State :=
  { cfg := cfg, phase := phase, sample := sample, sub := sub, out := out, outv := outv, halt := halt, stream := stream,
    boot := .running, inputs := [.edge p], now := 0, work := Work.clear cfg.nch }

/-- A block with a tick's local values put in. -/
def withWork (s : State) (eff : List Word) (bits : List Bool) (group packed : Byte) : State :=
  { s with work := ⟨eff, bits, group, packed⟩ }

/-- A block waiting for its CONFIGURE or for its first reset. -/
def bootedAs (b : Boot) : State := { State.reset with boot := b }

/-- What the test vectors write of a state: PHASE SAMPLE SUB OUT OUTV HALT and STREAM. -/
structure View where
  phase  : List Word
  sample : Byte
  sub    : Nat
  out    : Byte
  outv   : Bool
  halt   : Bool
  stream : List Byte
deriving DecidableEq, Repr

def viewOf : Result → Option View
  | .next t => some ⟨t.phase, t.sample, t.sub, t.out, t.outv, t.halt, t.stream⟩
  | .fault _ => none
  | .refused _ => none

/-- The local values after an operation. -/
def workOf : Result → Option Work
  | .next t => some t.work
  | .fault _ => none
  | .refused _ => none

/-- The tuning words of an accepted request, or the field that is refused. -/
def ftwsOf (r : StartupRequest) : List Word ⊕ ConfigField :=
  match configured r with
  | .ok c => .inl (c.accs.map AccCfg.ftw)
  | .error what => .inr what

/-- CFG_A's request with integer rates. -/
def requestA (rate frequency : Rat) : StartupRequest :=
  { sampleRate := .finite rate, accs := [⟨.finite frequency, 0⟩], chans := [⟨0, 0, 0⟩], nsub := 1, stride := 2 }

/-- A request that is good but for the fields put in. -/
def requestB (accs : List AccRequest) (chans : List ChanRequest) (nsub stride : Int) : StartupRequest :=
  { sampleRate := .finite 24, accs := accs, chans := chans, nsub := nsub, stride := stride }

/-- A frequency and channels that are good. -/
def goodAcc : AccRequest := ⟨.finite 12, 0⟩
def goodChans : List ChanRequest := [⟨0, 0, 0⟩, ⟨0, 4294967295, 1⟩]

/-- The pins of an edge: accept, busy, error, reset. -/
def pAccept : Pins := ⟨false, false, true⟩
def pBusy : Pins := ⟨false, false, false⟩
def pError : Pins := ⟨false, true, false⟩
def pReset : Pins := ⟨true, false, false⟩

/-- Variant A of S1 just before its first high tick, and with the sample of that tick waiting (V-STEP). -/
def beforeHigh (p : Pins) : State := blockAt (cfgA 0x15555555#32) [0x7FFFFFFE#32] 0 0 0 false false [] p
def waiting (p : Pins) : State := blockAt (cfgA 0x15555555#32) [0x95555553#32] 0 0 1 true false [] p

/-- A block halted by an IOError. -/
def halted (p : Pins) : State := { waiting p with halt := true }

/-- Variant B of P5 at the start of a period, at its second tick, and with a sample waiting. -/
def cfgP5 : Cfg := cfgB 0x40000000#32 0xC0000000#32
def firstTick (p : Pins) : State := blockAt cfgP5 [0x80000000#32] 0 0 1 false false [1] p
def secondTick (p : Pins) : State := blockAt cfgP5 [0xC0000000#32] 3 1 1 false false [1] p

/-! ### Well-formedness: the good configurations of R8, and one bad term for each check -/

theorem test_wellFormed_good :
    (cfgA 0x15555555#32).wellFormed = true ∧ cfgP5.wellFormed = true ∧ (cfgBStride4 0#32 0#32).wellFormed = true ∧
      (⟨[⟨1, 0⟩], [⟨0, 0, 7⟩], 1, 8⟩ : Cfg).wellFormed = true ∧
      (⟨[⟨1, 0⟩], [⟨0, 0, 0⟩], 8, 1⟩ : Cfg).wellFormed = true := by decide

theorem test_wf1_refuses :
    (⟨[], [⟨0, 0, 0⟩], 1, 2⟩ : Cfg).wf1 = false ∧ (⟨[⟨1, 0⟩], [], 1, 2⟩ : Cfg).wf1 = false ∧
      (⟨[⟨1, 0⟩], [⟨0, 0, 0⟩], 0, 2⟩ : Cfg).wf1 = false ∧ (⟨[⟨1, 0⟩], [⟨0, 0, 0⟩], 1, 0⟩ : Cfg).wf1 = false := by
  decide

theorem test_wf3_refuses_missing_accumulator : (⟨[⟨1, 0⟩], [⟨1, 0, 0⟩], 1, 2⟩ : Cfg).wf3 = false := by decide

theorem test_wf4_refuses_position_out_of_group : (⟨[⟨1, 0⟩], [⟨0, 0, 2⟩], 1, 2⟩ : Cfg).wf4 = false := by decide

theorem test_wf4_refuses_colliding_positions :
    (⟨[⟨1, 0⟩], [⟨0, 0, 0⟩, ⟨0, 0, 0⟩], 1, 2⟩ : Cfg).wf4 = false := by decide

theorem test_wf5_refuses_too_many_bits : (⟨[⟨1, 0⟩], [⟨0, 0, 0⟩], 5, 2⟩ : Cfg).wf5 = false := by decide

theorem test_instr_wellFormed_refuses :
    (Instr.acc 1).wellFormed cfgP5 = false ∧ (Instr.effphase 2).wellFormed cfgP5 = false ∧
      (Instr.decide 2).wellFormed cfgP5 = false ∧ (Instr.acc 0).wellFormed cfgP5 = true ∧
      (Instr.effphase 1).wellFormed cfgP5 = true := by decide

/-! ### Decoding: words written out from 30_encoding.md -/

/-- R73's table and V-STEP: rst HALT OUTV out_err out_ready, most significant bit first. -/
theorem test_decode_steps :
    decodeSelect 0b10000#5 = .reset ∧ decodeSelect 0b11111#5 = .reset ∧ decodeSelect 0b01000#5 = .hold ∧
      decodeSelect 0b01111#5 = .hold ∧ decodeSelect 0b00000#5 = .tick ∧ decodeSelect 0b00011#5 = .tick ∧
      decodeSelect 0b00110#5 = .fail ∧ decodeSelect 0b00111#5 = .fail ∧ decodeSelect 0b00101#5 = .emit ∧
      decodeSelect 0b00100#5 = .stall := by decide

/-- R74: a micro-operation carries TICK's pattern; CONFIGURE has no word. -/
theorem test_encode_micro_and_startup :
    encode (.acc 3) = ⟨5, 0b00000⟩ ∧ encode (.effphase 0) = ⟨5, 0b00000⟩ ∧ encode (.decide 1) = ⟨5, 0b00000⟩ ∧
      encode .group = ⟨5, 0b00000⟩ ∧ encode .pack = ⟨5, 0b00000⟩ ∧ encode .complete = ⟨5, 0b00000⟩ ∧
      encode (.configure StartupRequest.zero) = ⟨0, 0⟩ := by decide

/-- R61, R62, R64: one field, bits 31 to 0. -/
theorem test_decode_words :
    decodeAs .phase 0xFFFFFFFC = .ok (.phaseWord 0xFFFFFFFC#32) ∧
      decodeAs .ftw 0x0A81B4E8 = .ok (.ftwWord 0x0A81B4E8#32) ∧
      decodeAs .delta 0x40000000 = .ok (.deltaWord 0x40000000#32) := by decide

/-- R67, R69, R70: the layouts. -/
theorem test_decode_samples :
    decodeAs .groupB 0b10 = .ok (.groupB true false) ∧ decodeAs .sampleA 0b1 = .ok (.sampleA true) ∧
      decodeAs .sampleB 0b1001 = .ok (.sampleB true false false true) ∧
      decodeAs .sampleBStride4 0b100001 = .ok (.sampleBStride4 true false false true) := by decide

/-- A word too wide for its format, a fixed bit set, no word. -/
theorem test_decode_rejects_by_name :
    decodeAs .sel 0b100000 = .error (.tooWide .sel) ∧ decodeAs .groupB 0b100 = .error (.tooWide .groupB) ∧
      decodeAs .phase 0x100000000 = .error (.tooWide .phase) ∧
      decodeAs .sampleA 0x02 = .error (.fixedBitsSet .sampleA) ∧
      decodeAs .sampleB 0x10 = .error (.fixedBitsSet .sampleB) ∧
      decodeAs .sampleBStride4 0x04 = .error (.fixedBitsSet .sampleBStride4) ∧
      decodeAs .none 0 = .error .noWord := by decide

theorem test_decodeBytes :
    decodeBytes [0x05, 0xFF] = .ok (.emit, [0xFF]) ∧ decodeBytes [0x25] = .error (.tooWide .sel) ∧
      decodeBytes [] = .error .noWord := by decide

theorem test_withFetchWord_runs_the_word :
    (State.reset.withFetchWord 8 0x05).nextInstr = .emit ∧ (State.reset.withFetchWord 8 0x1F).nextInstr = .reset ∧
      (State.reset.withFetchWord 0 0).nextInstr = .configure StartupRequest.zero := by decide

/-! ### Single steps: V-STEP, S and P of 95_test_vectors.md -/

theorem test_tick_variant_a :
    viewOf (step (beforeHigh pBusy)) = some ⟨[0x95555553], 0x00, 0, 0x01, true, false, []⟩ := by decide

theorem test_tick_variant_b :
    viewOf (step (firstTick pBusy)) = some ⟨[0xC0000000], 0x03, 1, 0x01, false, false, [0x01]⟩ ∧
      viewOf (step (secondTick pError)) = some ⟨[0x00000000], 0x00, 0, 0x0E, true, false, [0x01]⟩ := by decide

theorem test_stall : viewOf (step (waiting pBusy)) = some ⟨[0x95555553], 0x00, 0, 0x01, true, false, []⟩ := by decide

theorem test_emit : viewOf (step (waiting pAccept)) = some ⟨[0x95555553], 0x00, 0, 0x01, false, false, [0x01]⟩ := by
  decide

theorem test_fail : viewOf (step (waiting pError)) = some ⟨[0x95555553], 0x00, 0, 0x01, true, true, []⟩ := by decide

theorem test_fail_error_beats_ready :
    viewOf (step (waiting ⟨false, true, true⟩)) = some ⟨[0x95555553], 0x00, 0, 0x01, true, true, []⟩ := by decide

theorem test_hold_ready_sink_does_not_restart :
    viewOf (step (halted pAccept)) = some ⟨[0x95555553], 0x00, 0, 0x01, true, true, []⟩ := by
  decide

theorem test_reset_halted :
    viewOf (step { waiting pReset with halt := true, stream := [0x01] }) =
      some ⟨[0x00000000], 0x00, 0, 0x00, false, false, [0x01]⟩ := by decide

/-- P5: half a sample is dropped. -/
theorem test_reset_in_mid_period :
    viewOf (step (secondTick pReset)) = some ⟨[0x00000000], 0x00, 0, 0x00, false, false, [0x01]⟩ := by decide

/-- V-ACC: no wrap, an exact 2^32, the largest sum. -/
theorem test_acc :
    viewOf (exec (.acc 0) (blockAt (cfgA 0x15555555) [0xDEADBEEF] 0 0 0 false false [] pBusy)) =
        some ⟨[0xF4031444], 0, 0, 0, false, false, []⟩ ∧
      viewOf (exec (.acc 0) (blockAt (cfgA 0xEDCBA988) [0x12345678] 0 0 0 false false [] pBusy)) =
        some ⟨[0x00000000], 0, 0, 0, false, false, []⟩ ∧
      viewOf (exec (.acc 0) (blockAt (cfgA 0xFFFFFFFF) [0xFFFFFFFF] 0 0 0 false false [] pBusy)) =
        some ⟨[0xFFFFFFFE], 0, 0, 0, false, false, []⟩ := by decide

/-- V-EFF: the sum wraps; the phase is not changed. -/
theorem test_effphase :
    workOf (exec (.effphase 1) (blockAt (cfgB 0 0x40000000) [0xD5555552] 0 0 0 false false [] pBusy)) =
        some ⟨[0, 0x15555552], [false, false], 0, 0⟩ ∧
      viewOf (exec (.effphase 1) (blockAt (cfgB 0 0x40000000) [0xD5555552] 0 0 0 false false [] pBusy)) =
        some ⟨[0xD5555552], 0, 0, 0, false, false, []⟩ := by decide

/-- V-DEC: the boundary, both sides. -/
theorem test_decide :
    workOf (exec (.decide 1) (withWork (firstTick pBusy) [0, 0x80000000] [false, false] 0 0)) =
        some ⟨[0, 0x80000000], [false, true], 0, 0⟩ ∧
      workOf (exec (.decide 0) (withWork (firstTick pBusy) [0x7FFFFFFF, 0] [true, false] 0 0)) =
        some ⟨[0x7FFFFFFF, 0], [false, false], 0, 0⟩ := by decide

/-- V-GROUP: reference 0, measurement 1 gives 2; reference 1, measurement 0 gives 1. -/
theorem test_group :
    workOf (exec .group (withWork (firstTick pBusy) [0, 0] [false, true] 0 0)) = some ⟨[0, 0], [false, true], 2, 0⟩ ∧
      workOf (exec .group (withWork (firstTick pBusy) [0, 0] [true, false] 0 0)) =
        some ⟨[0, 0], [true, false], 1, 0⟩ := by decide

/-- R115's example: SAMPLE = 0b01, g = 0b10 gives 0x06. -/
theorem test_pack :
    workOf (exec .pack (withWork { secondTick pBusy with sample := 0b01 } [0, 0] [false, true] 0b10 0)) =
      some ⟨[0, 0], [false, true], 2, 0x06⟩ := by decide

/-- R118's example: SUB = 1, s = 0x06. -/
theorem test_complete_last :
    viewOf (exec .complete (withWork (secondTick pBusy) [0, 0] [false, true] 2 0x06)) =
      some ⟨[0xC0000000], 0x00, 0, 0x06, true, false, [0x01]⟩ := by decide

theorem test_complete_first :
    viewOf (exec .complete (withWork (firstTick pBusy) [0, 0] [true, true] 3 0x03)) =
      some ⟨[0x80000000], 0x03, 1, 0x01, false, false, [0x01]⟩ := by decide

/-- V-CFG: the two examples, the largest word, ties. -/
theorem test_configure_accepts :
    ftwsOf (requestA 24000000 2000000) = .inl [0x15555555] ∧ ftwsOf (requestA 48000000 1970000) = .inl [0x0A81B4E8] ∧
      ftwsOf (requestA 1 0) = .inl [0] ∧ ftwsOf (requestA 8589934592 1) = .inl [0] ∧
      ftwsOf (requestA 8589934592 3) = .inl [2] ∧ ftwsOf (requestA 8589934592 8589934589) = .inl [0xFFFFFFFE] ∧
      ftwsOf (requestA 4294967296 4294967295) = .inl [0xFFFFFFFF] := by decide +kernel

/-- V-CFG: refused rates, and WF4 and WF5. -/
theorem test_configure_refuses :
    ftwsOf (requestA 8589934592 8589934591) = .inr .referenceFrequency ∧
      ftwsOf (requestA 24000000 24000000) = .inr .referenceFrequency ∧
      ftwsOf (requestA 0 2000000) = .inr .sampleRate ∧ ftwsOf (requestA (-24000000) 2000000) = .inr .sampleRate ∧
      ftwsOf (requestA 24000000 (-1)) = .inr .referenceFrequency ∧
      ftwsOf (requestB [goodAcc] [⟨0, 0, 0⟩, ⟨0, 0, 0⟩] 1 2) = .inr .pos ∧
      offenders (requestB [goodAcc] goodChans 5 2) = [.nsub, .stride] := by decide

theorem test_data_formats_refused (s : State) :
    exec (.phaseWord 0) s = .refused (.dataFormat .phase) ∧ exec (.ftwWord 0) s = .refused (.dataFormat .ftw) ∧
      exec (.deltaWord 0) s = .refused (.dataFormat .delta) ∧
      exec (.groupB true true) s = .refused (.dataFormat .groupB) ∧
      exec (.sampleA true) s = .refused (.dataFormat .sampleA) ∧
      exec (.sampleB true true true true) s = .refused (.dataFormat .sampleB) ∧
      exec (.sampleBStride4 true true true true) s = .refused (.dataFormat .sampleBStride4) :=
  ⟨rfl, rfl, rfl, rfl, rfl, rfl, rfl⟩

/-! ### Witnesses: the hypotheses of each statement, met -/

theorem test_hyp_DecodeOfEncodeIsTheRow :
    (Instr.format .fail = .sel ∧ Instr.selectedAs .fail = .fail) ∧
      (Instr.format (.sampleB true false true false) ≠ .none ∧ Instr.format (.sampleB true false true false) ≠ .sel) :=
  by decide

theorem test_hyp_StepRunsTheDecodedOperation :
    ((beforeHigh pBusy).nextEvent = .edge pBusy ∧ decodeSelect (selectWord (beforeHigh pBusy) pBusy) = .tick) ∧
      ((State.reset.withFetchWord 0 0).nextEvent = .configure StartupRequest.zero) := by decide

theorem test_hyp_StepSelectionOrder :
    (let s := { bootedAs (.refused .nsub) with inputs := [.edge pBusy] }
     s.nextEvent = .edge pBusy ∧ heldInReset s.boot = true) ∧
      ((waiting pReset).nextEvent = .edge pReset ∧ pReset.rst = true) ∧
      ((halted pBusy).nextEvent = .edge pBusy ∧ pBusy.rst = false ∧ heldInReset (halted pBusy).boot = false ∧
        (halted pBusy).halt = true) ∧
      ((beforeHigh pBusy).nextEvent = .edge pBusy ∧ heldInReset (beforeHigh pBusy).boot = false ∧
        (beforeHigh pBusy).halt = false ∧ (beforeHigh pBusy).outv = false) ∧
      ((waiting pError).nextEvent = .edge pError ∧ pError.rst = false ∧ heldInReset (waiting pError).boot = false ∧
        (waiting pError).halt = false ∧ (waiting pError).outv = true ∧ pError.outErr = true) ∧
      ((waiting pAccept).nextEvent = .edge pAccept ∧ pAccept.rst = false ∧ (waiting pAccept).outv = true ∧
        pAccept.outErr = false ∧ pAccept.outReady = true) ∧
      ((waiting pBusy).nextEvent = .edge pBusy ∧ (waiting pBusy).outv = true ∧ pBusy.outErr = false ∧
        pBusy.outReady = false) := by decide

theorem test_hyp_NextStepIgnoresData :
    let s := beforeHigh pBusy
    let t := { firstTick pBusy with phase := [] }
    s.halt = t.halt ∧ s.outv = t.outv ∧ s.boot = t.boot ∧ s.inputs = t.inputs ∧ s.now = t.now ∧ s ≠ t := by decide

theorem test_hyp_AccAdvancesOnePhaseModulo :
    (beforeHigh pBusy).coherent = true ∧ (beforeHigh pBusy).phase[0]? = some 0x7FFFFFFE#32 ∧
      (beforeHigh pBusy).cfg.accs[0]? = some ⟨0x15555555#32, 0#32⟩ := by decide

theorem test_hyp_EffphaseAddsTheOffsetModulo :
    (firstTick pBusy).coherent = true ∧ (firstTick pBusy).cfg.chans[1]? = some ⟨0, 0xC0000000#32, 1⟩ ∧
      (firstTick pBusy).phase[0]? = some 0x80000000#32 := by decide

theorem test_hyp_MicroOperationsStopByName :
    ((firstTick pBusy).coherent = true ∧ (firstTick pBusy).cfg.nacc ≤ 1 ∧ (firstTick pBusy).cfg.nch ≤ 2) ∧
      ({ firstTick pBusy with phase := [] }.coherent = false ∧ Instr.selectedAs .pack = .tick) := by decide

/-- One TICK and one EMIT. -/
def tickEmit : State := { beforeHigh pBusy with inputs := [.edge pBusy, .edge pAccept] }

theorem test_hyp_PhaseClosedForm :
    (∃ t, runSteps 2 tickEmit = .next t) ∧ keepsRunning (trace 2 tickEmit) = true ∧
      trace 2 tickEmit = [.tick, .emit] ∧ tickEmit.phase[0]? = some 0x7FFFFFFE#32 ∧
      tickEmit.cfg.accs[0]? = some ⟨0x15555555#32, 0#32⟩ := ⟨⟨_, rfl⟩, by decide⟩

/-- The tuning word of period 2: after one TICK the phase differs, after two it is back (V-ACC's closed form). -/
def periodTwo : State :=
  { blockAt (cfgA 0x80000000#32) [0x00000005#32] 0 0 0 false false [] pBusy with
    inputs := [.edge pBusy, .edge pAccept, .edge pBusy] }

theorem test_hyp_PhasePeriod :
    (∃ t, runSteps 3 periodTwo = .next t ∧ t.phase[0]? = some 0x00000005#32) ∧
      keepsRunning (trace 3 periodTwo) = true ∧ (trace 3 periodTwo).count .tick = 2 ∧
      (∃ t, runSteps 1 periodTwo = .next t ∧ t.phase[0]? ≠ some 0x00000005#32) ∧
      keepsRunning (trace 1 periodTwo) = true ∧ (trace 1 periodTwo).count .tick = 1 ∧
      periodTwo.phase[0]? = some 0x00000005#32 ∧ periodTwo.cfg.accs[0]? = some ⟨0x80000000#32, 0#32⟩ ∧
      2 ^ 32 / Nat.gcd 0x80000000 (2 ^ 32) = 2 :=
  ⟨⟨_, rfl, by decide⟩, by decide, by decide, ⟨_, rfl, by decide⟩, by decide, by decide, by decide, by decide,
    by norm_num⟩

theorem test_hyp_DecideTakesTheTopHalf :
    let s := withWork (firstTick pBusy) [0, 0x80000000] [false, false] 0 0
    s.coherent = true ∧ s.work.eff[1]? = some 0x80000000#32 := by decide

theorem test_hyp_GroupIsTheOrOfPlacedBits : cfgP5.wellFormed = true ∧ [true, false].length = cfgP5.nch := by decide

theorem test_hyp_micro_on_coherent_states :
    (withWork (firstTick pBusy) [0, 0] [true, true] 0 0).coherent = true ∧
      (withWork (secondTick pBusy) [0, 0] [false, true] 2 0).coherent = true := by decide

theorem test_hyp_CompleteCountsOrHandsOver :
    ((firstTick pBusy).coherent = true ∧ (firstTick pBusy).outv = false ∧
        (firstTick pBusy).sub ≠ (firstTick pBusy).cfg.nsub - 1) ∧
      ((secondTick pBusy).coherent = true ∧ (secondTick pBusy).outv = false ∧
        (secondTick pBusy).sub = (secondTick pBusy).cfg.nsub - 1) := by decide

/-- The groups 1, 2, 3, 0 of V-PACK's last line. -/
def groups1230 (t : Nat) : Nat := (t + 1) % 4

theorem test_hyp_PackedPeriodIsTheSum :
    (⟨[⟨1, 0⟩], [⟨0, 0, 0⟩, ⟨0, 0, 1⟩], 4, 2⟩ : Cfg).wellFormed = true ∧ (∀ t, groups1230 t < 2 ^ 2) ∧
      packedNumber 2 groups1230 4 = 0x6C :=
  ⟨by decide, fun t => Nat.mod_lt _ (by decide), by decide⟩

theorem test_hyp_TickAdvancesDecidesPacksCounts :
    (beforeHigh pBusy).coherent = true ∧ (beforeHigh pBusy).halt = false ∧ (beforeHigh pBusy).outv = false ∧
      (firstTick pBusy).coherent = true ∧ (firstTick pBusy).halt = false ∧ (firstTick pBusy).outv = false := by decide

theorem test_hyp_VariantAByteLayout :
    (beforeHigh pBusy).cfg = cfgA 0x15555555#32 ∧ (beforeHigh pBusy).Inv ∧
      heldInReset (beforeHigh pBusy).boot = false ∧ (beforeHigh pBusy).halt = false ∧
      (beforeHigh pBusy).outv = false := by
  unfold State.Inv State.inShape; decide

/-- The start of a period with STRIDE = 4. -/
def firstTickStride4 : State := { firstTick pBusy with cfg := cfgBStride4 0x40000000#32 0xC0000000#32 }

theorem test_hyp_VariantBByteLayout :
    ((firstTick pBusy).cfg = cfgB 0x40000000#32 0xC0000000#32 ∧ (firstTick pBusy).Inv ∧
        heldInReset (firstTick pBusy).boot = false ∧ (firstTick pBusy).halt = false ∧
        (firstTick pBusy).outv = false ∧ (firstTick pBusy).sub = 0) ∧
      (firstTickStride4.cfg = cfgBStride4 0x40000000#32 0xC0000000#32 ∧ firstTickStride4.Inv ∧
        heldInReset firstTickStride4.boot = false ∧ firstTickStride4.halt = false ∧
        firstTickStride4.outv = false ∧ firstTickStride4.sub = 0) := by
  unfold State.Inv State.inShape; decide

theorem test_hyp_emitter_steps : (waiting pBusy).halt = false ∧ (waiting pBusy).outv = true := by decide

theorem test_hyp_HoldChangesNothing : (halted pBusy).halt = true := by decide

theorem test_hyp_ErrorNumbers :
    ((waiting pError).boot ≠ .refused .sampleRate ∧ (waiting pError).boot = .running ∧
        ∃ t, exec .fail (waiting pError) = .next t) ∧
      ∃ t, t = (bootedAs .configured).raise (.configurationError .sampleRate) :=
  ⟨⟨by decide, rfl, _, rfl⟩, _, rfl⟩

theorem test_hyp_HaltHoldsUntilReset :
    (halted pAccept).halt = true ∧ (halted pAccept).nextEvent = .edge pAccept ∧ pAccept.rst = false ∧
      heldInReset (halted pAccept).boot = false := by decide

/-- A busy sink, an accepting one, and one that fails. -/
theorem test_hyp_OfferedByteIsKept :
    ((waiting pBusy).outv = true ∧ (∃ t, step (waiting pBusy) = .next t) ∧ (waiting pBusy).nextInstr ≠ .reset) ∧
      ((waiting pAccept).outv = true ∧ (∃ t, step (waiting pAccept) = .next t) ∧
        (waiting pAccept).nextInstr ≠ .reset) ∧
      ((waiting pError).outv = true ∧ (∃ t, step (waiting pError) = .next t) ∧ (waiting pError).nextInstr = .fail) :=
  ⟨⟨rfl, ⟨_, rfl⟩, by decide⟩, ⟨rfl, ⟨_, rfl⟩, by decide⟩, rfl, ⟨_, rfl⟩, by decide⟩

theorem test_hyp_BusySinkMakesNoProgress :
    let s := { waiting pBusy with inputs := [.edge pBusy, .edge pBusy, .edge pAccept] }
    s.boot = .running ∧ s.halt = false ∧ s.outv = true ∧
      s.inputs = List.replicate 2 (.edge ⟨false, false, false⟩) ++ [.edge pAccept] := by decide

theorem test_hyp_SinkIgnoredDuringTick :
    (beforeHigh pBusy).outv = false ∧ (beforeHigh pBusy).halt = false ∧
      heldInReset (beforeHigh pBusy).boot = false := by decide

theorem test_hyp_EmitThenTickIsTickThenAppend :
    ∃ t, exec .tick { waiting pAccept with outv := false } = .next t := ⟨_, rfl⟩

theorem test_hyp_StreamGrowsOnlyByEmit :
    ((∃ t, step (waiting pAccept) = .next t) ∧ (waiting pAccept).nextInstr = .emit) ∧
      ((∃ t, step (waiting pBusy) = .next t) ∧ (waiting pBusy).nextInstr ≠ .emit) ∧
      ∃ t, exec .tick (beforeHigh pBusy) = .next t :=
  ⟨⟨⟨_, rfl⟩, by decide⟩, ⟨⟨_, rfl⟩, by decide⟩, _, rfl⟩

/-- P5: a block in mid-period with a byte delivered, and what it is asked after the RESET; a fresh block. -/
def midRun (inputs : List EnvEvent) : State := { secondTick pBusy with inputs := inputs }
def freshP5 (inputs : List EnvEvent) : State := State.resetOf cfgP5 inputs
def inputsTTE : List EnvEvent := [.edge pBusy, .edge pError, .edge pAccept]
def inputsTTSE : List EnvEvent := [.edge pBusy, .edge pBusy, .edge pBusy, .edge pAccept]

theorem test_hyp_StreamClosedForm :
    (midRun inputsTTE).cfg.wellFormed = true ∧ (midRun inputsTTE).stream = [0x01#8] ∧
      ∃ r, exec .reset (midRun inputsTTE) = .next r ∧ keepsRunning (trace 3 r) = true ∧
        ∃ t, runSteps 3 r = .next t ∧ t.stream[1 + 0]? = some 0x01#8 ∧ byteAt cfgP5 0 = 1 :=
  ⟨by decide, rfl, _, rfl, by decide, _, rfl, by decide, by decide⟩

theorem test_hyp_TicksAreAccountedFor :
    (midRun inputsTTE).cfg.wellFormed = true ∧
      ∃ r, exec .reset (midRun inputsTTE) = .next r ∧ keepsRunning (trace 2 r) = true ∧
        ∃ t, runSteps 2 r = .next t ∧ t.outv = true ∧ (trace 2 r).count .tick = 2 :=
  ⟨by decide, _, rfl, by decide, _, rfl, by decide, by decide⟩

theorem test_hyp_RestartReproducesTheStream :
    (midRun inputsTTE).cfg.wellFormed = true ∧ (freshP5 inputsTTSE).cfg = (midRun inputsTTE).cfg ∧
      (∃ r, exec .reset (midRun inputsTTE) = .next r ∧ keepsRunning (trace 3 r) = true ∧
        ∃ t, runSteps 3 r = .next t ∧ t.stream.drop 1 = [0x01#8]) ∧
      (∃ r, exec .reset (freshP5 inputsTTSE) = .next r ∧ keepsRunning (trace 4 r) = true ∧
        ∃ t, runSteps 4 r = .next t ∧ t.stream.drop 0 = [0x01#8]) :=
  ⟨by decide, rfl, ⟨_, rfl, by decide, _, rfl, by decide⟩, _, rfl, by decide, _, rfl, by decide⟩

/-- One byte from reset with a sink that is busy once. -/
theorem test_hyp_LoopIsTicksStallsEmit :
    (cfgA 0x95555555#32).wellFormed = true ∧
      trace 3 (State.resetOf (cfgA 0x95555555#32) [.edge pError, .edge pBusy, .edge pAccept]) =
        [.tick, .stall, .emit] := by decide

/-- P4's sink that closes: one tick left in the period, or a sample waiting already. -/
theorem test_hyp_ClosedSinkIsNoticedAtTheNextEmit :
    (let s := { beforeHigh pError with inputs := List.replicate (1 + 1 + 0) (.edge ⟨false, true, false⟩) }
     s.Inv ∧ heldInReset s.boot = false ∧ s.halt = false ∧ s.outv = false ∧ s.cfg.nsub - s.sub = 1) ∧
      (let s := waiting pError
       s.Inv ∧ heldInReset s.boot = false ∧ s.halt = false ∧ s.outv = true ∧
         s.inputs = List.replicate (0 + 1 + 0) (.edge ⟨false, true, false⟩) ++ []) := by
  unfold State.Inv State.inShape; decide

theorem test_hyp_StepKeepsInvariant :
    ((firstTick pBusy).Inv ∧ ∃ t, step (firstTick pBusy) = .next t) ∧
      ((bootedAs .configured).Inv ∧ (bootedAs (.refused .nch)).Inv) :=
  ⟨⟨by unfold State.Inv State.inShape; decide, _, rfl⟩, by unfold State.Inv State.inShape; decide⟩

theorem test_hyp_ResetMeetsInvariant : (cfgBStride4 1#32 2#32).wellFormed = true := by decide

theorem test_hyp_StepNeverStopsButOnReconfiguration :
    (firstTick pBusy).Inv ∧ { firstTick pBusy with inputs := [.configure StartupRequest.zero] }.Inv := by
  unfold State.Inv State.inShape; decide

theorem test_hyp_UnusedBitsStayZero :
    (secondTick pBusy).Inv ∧ heldInReset (secondTick pBusy).boot = false ∧
      unusedBitsZero cfgP5 1 (secondTick pBusy).sample ∧ unusedBitsZero cfgP5 cfgP5.nsub (secondTick pBusy).out := by
  unfold State.Inv State.inShape unusedBitsZero; decide

theorem test_hyp_RunningConfigurationIsConstant :
    ((beforeHigh pBusy).boot = .running ∧ ∃ t, step (beforeHigh pBusy) = .next t) ∧
      ((∃ t, runSteps 2 tickEmit = .next t) ∧ ∀ i ∈ trace 2 tickEmit, ∀ r, i ≠ .configure r) := by
  refine ⟨⟨rfl, _, rfl⟩, ⟨_, rfl⟩, ?_⟩
  rw [show trace 2 tickEmit = [.tick, .emit] by decide]
  intro i hi r h
  subst h
  simp at hi

theorem test_hyp_BlocksShareNothing :
    (∃ bank, stepAt 0 [beforeHigh pBusy, waiting pBusy] = .next bank) ∧
      [beforeHigh pBusy, waiting pBusy][0]? = some (beforeHigh pBusy) ∧
      [beforeHigh pBusy, waiting pAccept][0]? = some (beforeHigh pBusy) := ⟨⟨_, rfl⟩, rfl, rfl⟩

theorem test_tuningNumber_half : tuningNumber 1 8589934592 = 0 ∧ tuningNumber 3 8589934592 = 2 := by decide

/-- Zero, and an exact half. -/
theorem test_hyp_TuningNumberIsNearest :
    ((0 : Rat) ≤ 0 ∧ (0 : Rat) < 24) ∧
      ((0 : Rat) ≤ 1 ∧ (0 : Rat) < 8589934592 ∧
        |(tuningNumber 1 8589934592 : Rat) - 1 * 2 ^ 32 / 8589934592| = 1 / 2) := by
  rw [test_tuningNumber_half.1]
  norm_num

/-- Variant B at 24 with the frequency 12, its second offset the largest word. -/
theorem test_hyp_ConfigureBuildsTheConfiguration :
    let req := requestB [goodAcc] goodChans 2 4
    (bootedAs .configured).boot ≠ .running ∧ req.sampleRate = .finite 24 ∧ (0 : Rat) < 24 ∧
      (∀ a ∈ req.accs, 0 ≤ a.phaseInit ∧ a.phaseInit < 2 ^ 32 ∧
        ∃ f : Rat, a.referenceFrequency = .finite f ∧ 0 ≤ f ∧ f * 2 ^ 32 / 24 < 2 ^ 32 - 1 / 2) ∧
      (∀ ch ∈ req.chans, 0 ≤ ch.delta ∧ ch.delta < 2 ^ 32 ∧ 0 ≤ ch.src ∧ ch.src < req.accs.length ∧ 0 ≤ ch.pos ∧
        ch.pos < req.stride) ∧
      (req.chans.map ChanRequest.pos).Nodup ∧ req.accs ≠ [] ∧ req.chans ≠ [] ∧ 1 ≤ req.nsub ∧ 1 ≤ req.stride ∧
      req.nsub * req.stride ≤ 8 := by
  refine ⟨by decide, rfl, by norm_num, ?_, by decide, by decide, by decide, by decide, by decide, by decide, by decide⟩
  intro a ha
  obtain rfl : a = goodAcc := by simpa [requestB] using ha
  exact ⟨by decide, by decide, 12, rfl, by norm_num, by norm_num⟩

/-- The rate zero and a rate that is no number; a negative frequency, and one whose quotient is exactly 2^32 - 1/2. -/
theorem test_hyp_ConfigureRefusesBadRates :
    (bootedAs .inReset).boot ≠ .running ∧ (requestA 0 2000000).sampleRate = .finite 0 ∧ (0 : Rat) ≤ 0 ∧
      { requestA 1 1 with sampleRate := .notFinite }.sampleRate = .notFinite ∧ (0 : Rat) < 8589934592 ∧ (-1 : Rat) < 0 ∧
      (requestA 24 (-1)).accs = [⟨.finite (-1), 0⟩] ∧
      (requestA 8589934592 8589934591).accs = [⟨.finite 8589934591, 0⟩] ∧
      (2 : Rat) ^ 32 - 1 / 2 ≤ 8589934591 * 2 ^ 32 / 8589934592 := by
  refine ⟨by decide, rfl, le_rfl, rfl, by norm_num, by norm_num, rfl, rfl, by norm_num⟩

/-- Good rates at the edge of what is accepted, and each way the rest can be bad, at its first bad value. -/
theorem test_hyp_ConfigureRefusesIllFormedRest :
    (bootedAs .configured).boot ≠ .running ∧
      (∃ f : Rat, goodAcc.referenceFrequency = .finite f ∧ 0 ≤ f ∧ f * 2 ^ 32 / 24 < 2 ^ 32 - 1 / 2) ∧
      (requestB [] goodChans 2 2).accs = [] ∧ (requestB [goodAcc] [] 2 2).chans = [] ∧
      (requestB [goodAcc] goodChans 0 2).nsub < 1 ∧ (requestB [goodAcc] goodChans 2 0).stride < 1 ∧
      (⟨.finite 12, -1⟩ : AccRequest).phaseInit < 0 ∧ 2 ^ 32 ≤ (⟨.finite 12, 4294967296⟩ : AccRequest).phaseInit ∧
      (⟨0, -1, 0⟩ : ChanRequest).delta < 0 ∧ 2 ^ 32 ≤ (⟨0, 4294967296, 0⟩ : ChanRequest).delta ∧
      (⟨-1, 0, 0⟩ : ChanRequest).src < 0 ∧ (([goodAcc].length : Nat) : Int) ≤ (⟨1, 0, 0⟩ : ChanRequest).src ∧
      (⟨0, 0, -1⟩ : ChanRequest).pos < 0 ∧ (2 : Int) ≤ (⟨0, 0, 2⟩ : ChanRequest).pos ∧
      ¬ ([(⟨0, 0, 0⟩ : ChanRequest), ⟨0, 0, 0⟩].map ChanRequest.pos).Nodup ∧ (8 : Int) < 3 * 3 := by
  refine ⟨by decide, ⟨12, rfl, by norm_num, by norm_num⟩, by decide⟩

/-- Each of those requests names its field. -/
theorem test_configure_names_the_field :
    [requestB [] [] 1 1, requestB [goodAcc] [] 1 1, requestB [goodAcc] goodChans 0 2,
      requestB [⟨.finite 12, 4294967296⟩] goodChans 2 2, requestB [goodAcc] [⟨0, 4294967296, 0⟩] 1 1,
      requestB [goodAcc] [⟨1, 0, 0⟩] 1 1, requestB [goodAcc] [⟨0, 0, 2⟩] 1 2].map offenders =
      [[.nacc, .nch], [.nch], [.nsub], [.phaseInit], [.delta], [.src], [.pos]] := by decide

theorem test_hyp_ConfigureRefusedWhileRunning : (bootedAs .running).boot = .running := rfl

theorem test_hyp_RefusedBlockNeverLeavesReset :
    let s := { bootedAs (.refused .sampleRate) with inputs := [.edge pBusy, .edge pReset] }
    s.boot = .refused .sampleRate ∧ 2 ≤ s.inputs.length ∧ ∀ e ∈ s.inputs, ∃ p, e = .edge p := by
  refine ⟨rfl, by decide, ?_⟩
  intro e he
  simp only [List.mem_cons, List.not_mem_nil, or_false] at he
  rcases he with rfl | rfl
  · exact ⟨_, rfl⟩
  · exact ⟨_, rfl⟩

theorem test_hyp_DataFormatsAreRefused :
    Instr.format (.phaseWord 0) ≠ .none ∧ Instr.format (.phaseWord 0) ≠ .sel := by decide

end Sys2Proof.Tests
end

/-!
PROOFS. The output stream (20_memory.md R41). The one fact behind both parts of R41: whatever stands in STREAM, an
operation other than EMIT does the same thing and carries STREAM along.
-/

namespace Sys2Proof.Machine

/-- The state with another STREAM, every other field as it is. -/
def State.withStream (s : State) (x : List Byte) : State := { s with stream := x }

/-- What an operation answers, with another STREAM in the next state. -/
def Result.withStream (r : Result) (x : List Byte) : Result := r.andThen fun t => .next (t.withStream x)

@[simp] theorem withStream_stream (s : State) (x : List Byte) : (s.withStream x).stream = x := rfl
@[simp] theorem withStream_boot (s : State) (x : List Byte) : (s.withStream x).boot = s.boot := rfl
@[simp] theorem withStream_coherent (s : State) (x : List Byte) : (s.withStream x).coherent = s.coherent := rfl
@[simp] theorem withStream_self (s : State) : s.withStream s.stream = s := rfl
@[simp] theorem withStream_next (t : State) (x : List Byte) :
    Result.withStream (.next t) x = .next (t.withStream x) := rfl
@[simp] theorem withStream_refused (e : Refusal) (x : List Byte) :
    Result.withStream (.refused e) x = .refused e := rfl

theorem completeTick_withStream (s : State) (x : List Byte) :
    (s.withStream x).completeTick = s.completeTick.withStream x := by
  change (if periodEnds s.cfg s.sub then _ else _) = State.withStream (if periodEnds s.cfg s.sub then _ else _) x
  split <;> rfl

/-- The guard of R7 does not look at STREAM. -/
theorem ifCoherent_withStream {s : State} {x : List Byte} {r r' : Result} (h : r' = r.withStream x) :
    (s.withStream x).ifCoherent r' = Result.withStream (s.ifCoherent r) x := by
  cases hc : s.coherent
  case false => simp [hc]
  case true => simpa [hc] using h

/-- Nor does the check of a micro-operation's index (R93, R97, R110). -/
theorem indexed_withStream {p : Prop} [Decidable p] (t : State) (e : Fault) (x : List Byte) :
    (if p then .next (t.withStream x) else .fault e) =
      Result.withStream (if p then .next t else .fault e) x := by
  split <;> rfl

theorem execConfigure_withStream (req : StartupRequest) (s : State) (x : List Byte) :
    execConfigure req (s.withStream x) = (execConfigure req s).withStream x := by
  unfold execConfigure
  rw [withStream_boot]
  cases s.boot
  case running => rfl
  all_goals cases configured req <;> rfl

/-- Every operation but EMIT carries STREAM along without reading it (R41). -/
theorem exec_withStream {i : Instr} (hi : i ≠ .emit) (s : State) (x : List Byte) :
    exec i (s.withStream x) = Result.withStream (exec i s) x := by
  cases i with
  | emit => exact absurd rfl hi
  | reset | hold | fail | stall => rfl
  | tick =>
    have hc := completeTick_withStream s.accAll.effAll.decideAll.groupBits.packGroup x
    exact ifCoherent_withStream (congrArg Host.Outcome.next hc)
  | acc k => exact ifCoherent_withStream (indexed_withStream (s.accOne k) _ x)
  | effphase j => exact ifCoherent_withStream (indexed_withStream (s.effOne j) _ x)
  | decide j => exact ifCoherent_withStream (indexed_withStream (s.decideOne j) _ x)
  | group | pack => exact ifCoherent_withStream rfl
  | complete => exact ifCoherent_withStream (congrArg Host.Outcome.next (completeTick_withStream s x))
  | configure req => exact execConfigure_withStream req s x
  | phaseWord | ftwWord | deltaWord | groupB | sampleA | sampleB | sampleBStride4 => rfl

/-- Carrying the STREAM that is there along leaves it as it is. -/
theorem exec_stream_of_ne_emit {i : Instr} {s t : State} (hi : i ≠ .emit) (h : exec i s = .next t) :
    t.stream = s.stream := by
  have hw := exec_withStream hi s s.stream
  rw [withStream_self, h, withStream_next] at hw
  injection hw with ht
  rw [ht, withStream_stream]

theorem step_stream {s t : State} (h : step s = .next t) :
    (s.nextInstr = .emit ∧ t.stream = s.stream ++ [s.out]) ∨ (s.nextInstr ≠ .emit ∧ t.stream = s.stream) := by
  rw [step_eq] at h
  by_cases hi : s.nextInstr = .emit
  · rw [hi, exec_emit] at h
    cases h
    exact .inl ⟨hi, rfl⟩
  · exact .inr ⟨hi, (exec_stream_of_ne_emit hi h).trans (advance_stream s)⟩

/-- Settles O37: a step appends OUT in EMIT and keeps STREAM in every other operation, and no operation reads STREAM. -/
theorem streamGrowsOnlyByEmit : Obligations.StreamGrowsOnlyByEmit := by
  refine ⟨fun s t => step_stream, fun i s t x h => ?_⟩
  by_cases hi : i = .emit
  · subst hi
    rw [exec_emit] at h
    cases h
    exact ⟨x ++ [s.out], rfl⟩
  · refine ⟨x, ?_⟩
    change exec i (s.withStream x) = .next (t.withStream x)
    rw [exec_withStream hi, h, withStream_next]

end Sys2Proof.Machine

/-!
PROOFS. The decision, the group and the sample layout (30_encoding.md R66, R67, R71). The one idea behind R71: "within a
mask" passes through the shift and the OR of PACK, and the group of any decisions is within the group of all ones.
-/

namespace Sys2Proof.Machine

/-! ### The decision bit (R66) -/

theorem decideBit_iff (e : Word) : decideBit e = true ↔ 2 ^ 31 ≤ e.toNat := by
  simp [decideBit, BitVec.le_def]

theorem decideBit_eq_msb (e : Word) : decideBit e = e.msb := by
  rw [Bool.eq_iff_iff, decideBit_iff, BitVec.msb_eq_true_iff_two_mul_ge]
  omega

/-- Settles O12: the comparison with 2^31 is the most significant bit. -/
theorem decisionIsTheTopHalfAndBit31 : Obligations.DecisionIsTheTopHalfAndBit31 :=
  fun e => ⟨decideBit_iff e, decideBit_eq_msb e⟩

/-! ### The group (R67) -/

/-- The OR of b_j << POS[j] in plain numbers, the right side of R67. -/
def orOfPlacedBits (chans : List ChanCfg) (bits : List Bool) : Nat :=
  (List.zipWith (fun (ch : ChanCfg) (b : Bool) => b.toNat <<< ch.pos) chans bits).foldr (· ||| ·) 0

@[simp] theorem orOfPlacedBits_nil (bits : List Bool) : orOfPlacedBits [] bits = 0 := rfl
@[simp] theorem orOfPlacedBits_cons_nil (ch : ChanCfg) (chans : List ChanCfg) :
    orOfPlacedBits (ch :: chans) [] = 0 := rfl
@[simp] theorem orOfPlacedBits_cons (ch : ChanCfg) (chans : List ChanCfg) (b : Bool) (bits : List Bool) :
    orOfPlacedBits (ch :: chans) (b :: bits) = (b.toNat <<< ch.pos) ||| orOfPlacedBits chans bits := rfl

theorem placedBit_toNat (b : Bool) {pos : Nat} (h : pos < 8) : (placedBit b pos).toNat = b.toNat <<< pos := by
  cases b
  case false => simp [placedBit]
  case true => simpa [placedBit, Nat.one_shiftLeft] using Nat.pow_lt_pow_right (by decide : 1 < 2) h

/-- Where every position fits in a byte, the group as a number is the OR of the shifted bits. -/
theorem groupOf_toNat {chans : List ChanCfg} (h : ∀ ch ∈ chans, ch.pos < 8) (bits : List Bool) :
    (groupOf chans bits).toNat = orOfPlacedBits chans bits := by
  induction chans generalizing bits with
  | nil => rfl
  | cons ch chans ih =>
    obtain ⟨hch, hchs⟩ := List.forall_mem_cons.1 h
    cases bits with
    | nil => rfl
    | cons b bits => simp [groupOf, placedBit_toNat b hch, ih hchs bits]

theorem bit_shiftLeft_lt (b : Bool) {pos stride : Nat} (h : pos < stride) : b.toNat <<< pos < 2 ^ stride :=
  calc b.toNat <<< pos = b.toNat * 2 ^ pos := Nat.shiftLeft_eq _ _
    _ ≤ 1 * 2 ^ pos := Nat.mul_le_mul_right _ (Bool.toNat_le b)
    _ = 2 ^ pos := Nat.one_mul _
    _ < 2 ^ stride := Nat.pow_lt_pow_right (by decide) h

theorem orOfPlacedBits_lt {chans : List ChanCfg} {stride : Nat} (h : ∀ ch ∈ chans, ch.pos < stride)
    (bits : List Bool) : orOfPlacedBits chans bits < 2 ^ stride := by
  induction chans generalizing bits with
  | nil => exact Nat.two_pow_pos stride
  | cons ch chans ih =>
    obtain ⟨hch, hchs⟩ := List.forall_mem_cons.1 h
    cases bits with
    | nil => exact Nat.two_pow_pos stride
    | cons b bits => exact Nat.or_lt_two_pow (bit_shiftLeft_lt b hch) (ih hchs bits)

theorem wellFormed_pos_lt {c : Cfg} (h : c.wellFormed = true) : ∀ ch ∈ c.chans, ch.pos < c.stride := by
  obtain ⟨-, -, ⟨hpos, -⟩, -⟩ := (wellFormed_iff c).1 h
  exact hpos

theorem groupOf_wellFormed {c : Cfg} (h : c.wellFormed = true) (bits : List Bool) :
    (groupOf c.chans bits).toNat = orOfPlacedBits c.chans bits :=
  groupOf_toNat (fun ch hch => (wellFormed_pos_lt h ch hch).trans_le (wellFormed_stride_le h)) bits

/-- Settles O15: the general form by induction over the channels, read off for CFG_A and CFG_B. -/
theorem groupIsTheOrOfPlacedBits : Obligations.GroupIsTheOrOfPlacedBits := by
  refine ⟨fun c bits hw _ => ⟨groupOf_wellFormed hw bits, ?_⟩, fun f r => ?_, fun f d r m => ?_⟩
  · rw [groupOf_wellFormed hw]
    exact orOfPlacedBits_lt (wellFormed_pos_lt hw) bits
  · rw [groupOf_wellFormed (cfgA_wellFormed f)]
    simp [cfgA]
  · rw [groupOf_wellFormed (cfgB_wellFormed f d), Nat.or_comm]
    simp [cfgB]

/-! ### Bytes within a mask (R71) -/

/-- Every bit that is set in b is set in m. -/
def Within (b m : Byte) : Prop := ∀ i, b.getLsbD i = true → m.getLsbD i = true

theorem unusedBitsZero_iff_within (c : Cfg) (n : Nat) (b : Byte) :
    unusedBitsZero c n b ↔ Within b (layoutMask c n) := by
  constructor
  · intro h i hb
    have hi := congrArg (BitVec.getLsbD · i) h
    simpa [hb, BitVec.lt_of_getLsbD hb] using hi
  · intro h
    refine BitVec.eq_of_getLsbD_eq fun i _ => ?_
    cases hb : b.getLsbD i
    case false => simp [hb]
    case true => simp [hb, h i hb]

theorem unusedBitsZero_zero (c : Cfg) (n : Nat) : unusedBitsZero c n 0 := BitVec.zero_and

theorem Within.or {a b m n : Byte} (ha : Within a m) (hb : Within b n) : Within (a ||| b) (m ||| n) := by
  intro i h
  rw [BitVec.getLsbD_or, Bool.or_eq_true] at h ⊢
  exact h.imp (ha i) (hb i)

theorem Within.shiftLeft {b m : Byte} (h : Within b m) (n : Nat) : Within (b <<< n) (m <<< n) := by
  intro i
  simp only [BitVec.getLsbD_shiftLeft, Bool.and_eq_true]
  exact And.imp_right (h (i - n))

theorem placedBit_within (b : Bool) (pos : Nat) : Within (placedBit b pos) (placedBit true pos) := by
  cases b
  case false => intro i h; simp [placedBit] at h
  case true => exact fun _ h => h

/-- Whatever the decisions are, the group has bits only at the positions of the channels. -/
theorem groupOf_within (chans : List ChanCfg) (bits : List Bool) :
    Within (groupOf chans bits) (groupOf chans (chans.map fun _ => true)) := by
  induction chans generalizing bits with
  | nil => exact fun _ h => h
  | cons ch chans ih =>
    cases bits with
    | nil => intro i h; simp [groupOf] at h
    | cons b bits => exact (placedBit_within b ch.pos).or (ih bits)

/-- PACK takes a sample in the layout of n ticks to one in the layout of n + 1. -/
theorem unusedBitsZero_packed {c : Cfg} {n : Nat} {sample : Byte} (h : unusedBitsZero c n sample) (bits : List Bool) :
    unusedBitsZero c (n + 1) (packed c.stride sample (groupOf c.chans bits)) := by
  rw [unusedBitsZero_iff_within] at h ⊢
  exact (h.shiftLeft c.stride).or (groupOf_within c.chans bits)

/-! ### What a step can do, with its guard (R130) -/

/-- A block held in reset answers every clock edge with RESET (R151, R182). -/
theorem nextInstr_of_heldInReset {s : State} (hb : heldInReset s.boot = true) :
    s.nextInstr = .reset ∨ ∃ req, s.nextInstr = .configure req := by
  cases he : s.nextEvent with
  | edge p => exact .inl (by simp [nextInstr_edge he, decodeSelect_selectWord, hb])
  | configure req => exact .inr ⟨req, nextInstr_configure he⟩

theorem heldInReset_of_nextInstr {s : State} (hr : s.nextInstr ≠ .reset)
    (hc : ∀ req, s.nextInstr ≠ .configure req) : heldInReset s.boot = false :=
  Bool.eq_false_of_not_eq_true fun hb => (nextInstr_of_heldInReset hb).elim hr fun ⟨req, h⟩ => hc req h

/-- One step that answers a next state is RESET, or CONFIGURE, after which the block is held in reset, or, on a block
not held in reset, one of TICK, HOLD, STALL, FAIL and EMIT. -/
theorem step_cases {s t : State} (h : step s = .next t) :
    (s.nextInstr = .reset ∧ t = s.advance.resetAll) ∨
    (∃ req, s.nextInstr = .configure req ∧ heldInReset t.boot = true) ∨
    (heldInReset s.boot = false ∧
      ((s.nextInstr = .tick ∧ t = s.advance.accAll.effAll.decideAll.groupBits.packGroup.completeTick) ∨
       ((s.nextInstr = .hold ∨ s.nextInstr = .stall) ∧ t = s.advance) ∨
       (s.nextInstr = .fail ∧ t = s.advance.raise .ioError) ∨
       (s.nextInstr = .emit ∧ t = (s.advance.streamWrite s.out).clearOutv))) := by
  rw [step_eq] at h
  have hheld := heldInReset_of_nextInstr (s := s)
  obtain hi | hi | hi | hi | hi | hi | ⟨req, hi⟩ := nextInstr_cases s <;> rw [hi] at h hheld
  · cases h; exact .inl ⟨hi, rfl⟩
  · cases h; simp [hi, hheld]
  · obtain ⟨-, rfl⟩ := exec_tick_next h
    simp [hi, hheld]
  · cases h; simp [hi, hheld]
  · cases h; simp [hi, hheld]
  · cases h; simp [hi, hheld]
  · obtain ⟨-, ⟨what, -, rfl⟩ | ⟨c, -, rfl⟩⟩ := exec_configure_next h <;> exact .inr (.inl ⟨req, hi, rfl⟩)

/-! ### The layout is kept (R71) -/

/-- SAMPLE and OUT of a block not held in reset have bits only in the layout of the ticks done and of a period. -/
def State.InLayout (s : State) : Prop :=
  heldInReset s.boot = false → unusedBitsZero s.cfg s.sub s.sample ∧ unusedBitsZero s.cfg s.cfg.nsub s.out

theorem completeTick_inLayout {s : State} (hsub : s.sub < s.cfg.nsub) (ho : unusedBitsZero s.cfg s.cfg.nsub s.out)
    (hp : unusedBitsZero s.cfg (s.sub + 1) s.work.packed) : s.completeTick.InLayout := by
  obtain ⟨hlast, h⟩ | ⟨-, h⟩ := completeTick_cases s <;> rw [h]
  · have hn : s.sub + 1 = s.cfg.nsub := by omega
    exact fun _ => ⟨unusedBitsZero_zero s.cfg 0, hn ▸ hp⟩
  · exact fun _ => ⟨hp, ho⟩

theorem step_keeps_inLayout {s t : State} (hinv : s.Inv) (hl : s.InLayout) (h : step s = .next t) : t.InLayout := by
  obtain ⟨-, rfl⟩ | ⟨req, -, ht⟩ | ⟨hb, hop⟩ := step_cases h
  · exact fun _ => ⟨unusedBitsZero_zero s.cfg 0, unusedBitsZero_zero s.cfg s.cfg.nsub⟩
  · exact fun hb => absurd ht (by simp [hb])
  · obtain ⟨hsample, hout⟩ := hl hb
    obtain ⟨-, hshape⟩ := hinv
    obtain ⟨-, -, hsub, -⟩ := hshape hb
    obtain ⟨-, rfl⟩ | ⟨-, rfl⟩ | ⟨-, rfl⟩ | ⟨-, rfl⟩ := hop
    · exact completeTick_inLayout hsub hout (unusedBitsZero_packed hsample _)
    all_goals exact fun _ => ⟨hsample, hout⟩

theorem step_delivers_inLayout {s t : State} (hl : s.InLayout) (h : step s = .next t) :
    t.stream = s.stream ∨ ∃ b, t.stream = s.stream ++ [b] ∧ unusedBitsZero s.cfg s.cfg.nsub b := by
  obtain ⟨hi, hs⟩ | ⟨-, hs⟩ := step_stream h
  · obtain ⟨-, hout⟩ := hl (heldInReset_of_nextInstr (by simp [hi]) (by simp [hi]))
    exact .inr ⟨s.out, hs, hout⟩
  · exact .inl hs

/-- The one group of a byte of CFG_A is its bit 0. -/
theorem layoutMask_cfgA (f : Word) : layoutMask (cfgA f) (cfgA f).nsub = 0b00000001#8 := by
  simp [cfgA, layoutMask, groupOf, placedBit]

/-- The two groups of a byte of CFG_B lie side by side. -/
theorem layoutMask_cfgB (f d : Word) : layoutMask (cfgB f d) (cfgB f d).nsub = 0b00001111#8 := by
  simp [cfgB, layoutMask, groupOf, placedBit]

/-- With STRIDE = 4 two unused bits stand above each group. -/
theorem layoutMask_cfgBStride4 (f d : Word) :
    layoutMask (cfgBStride4 f d) (cfgBStride4 f d).nsub = 0b00110011#8 := by
  simp [cfgBStride4, cfgB, layoutMask, groupOf, placedBit]

/-- Settles O46: the step lemma, the reset case, and the three masks of R71. -/
theorem unusedBitsStayZero : Obligations.UnusedBitsStayZero :=
  ⟨fun _ _ hinv hl h => ⟨step_keeps_inLayout hinv hl h, step_delivers_inLayout hl h⟩,
    fun c _ => ⟨unusedBitsZero_zero c 0, unusedBitsZero_zero c c.nsub⟩,
    layoutMask_cfgA, layoutMask_cfgB, layoutMask_cfgBStride4⟩

end Sys2Proof.Machine

/-!
PROOFS. The accumulator (40_accumulate.md R93): a micro-operation on an accumulator the configuration has, and the sum
it stores.
-/

namespace Sys2Proof.Machine

/-! ### ACC (R93) -/

/-- Dropping the carry out of bit 31 (R94) is the reduction modulo 2^32 of R93. -/
theorem accSum_eq_ofNat_mod (p f : Word) : accSum p f = BitVec.ofNat 32 ((p.toNat + f.toNat) % 2 ^ 32) := by
  refine BitVec.eq_of_toNat_eq ?_
  simp [accSum]

theorem readPhase_of_getElem? {s : State} {i : Nat} {p : Word} (h : s.phase[i]? = some p) : s.readPhase i = p := by
  simp [State.readPhase, List.getD_eq_getElem?_getD, h]

theorem ftwOf_of_getElem? {c : Cfg} {i : Nat} {a : AccCfg} (h : c.accs[i]? = some a) : ftwOf c i = a.ftw := by
  simp [ftwOf, List.getD_eq_getElem?_getD, h]

/-- ACC on an accumulator that the configuration has passes both guards (R7, log entry 9). -/
theorem exec_acc_of_lt {s : State} {i : Nat} (hc : s.coherent = true) (hi : i < s.cfg.nacc) :
    exec (.acc i) s = .next (s.accOne i) := by
  change execAcc i s = _
  simp [execAcc, hc, hi]

/-- Settles O7: the index is in range because the configuration has an accumulator there, and the sum of words is the
sum modulo 2^32. -/
theorem accAdvancesOnePhaseModulo : Obligations.AccAdvancesOnePhaseModulo := by
  intro s i p a hc hp ha
  have hi : i < s.cfg.nacc := (List.getElem?_eq_some_iff.1 ha).1
  rw [exec_acc_of_lt hc hi, ← accSum_eq_ofNat_mod, State.accOne, readPhase_of_getElem? hp, ftwOf_of_getElem? ha]

end Sys2Proof.Machine

/-!
PROOFS. The packing of the sample (41_decide_pack.md R115): the packed byte as a number.
-/

namespace Sys2Proof.Machine

/-- Settles O17: the byte shift reduces the shifted sample modulo 2^8, the group is a byte already, and the reduction
passes through OR. -/
theorem packedIsShiftThenOr : Obligations.PackedIsShiftThenOr := by
  intro stride sample g
  have hg : g.toNat % 2 ^ 8 = g.toNat := Nat.mod_eq_of_lt g.isLt
  calc (packed stride sample g).toNat
      = (sample.toNat <<< stride) % 2 ^ 8 ||| g.toNat := by
        rw [packed, BitVec.toNat_or, BitVec.toNat_shiftLeft]
    _ = ((sample.toNat <<< stride) ||| g.toNat) % 2 ^ 8 := by rw [Nat.or_mod_two_pow, hg]

end Sys2Proof.Machine

/-!
PROOFS. The emitter's steps and the loop of TICKs, STALLs and EMIT (42_step_ops.md R133, R134, R137). The loop is put
together from rules of the form "from a state with P the machine performs these steps and is then in a state with Q",
one rule for each of the three steps; the rules join end to end.
-/

namespace Sys2Proof.Machine

/-! ### EMIT and STALL as operations (R133, R134) -/

/-- Settles O25: the effect needs neither precondition, which the select word sees to (log entry 10). -/
theorem emitAppendsOutAndClearsOutv : Obligations.EmitAppendsOutAndClearsOutv :=
  fun s _ _ => exec_emit s

/-- Settles O26: STALL is the identity, and the pins show the byte by the flags alone. -/
theorem stallChangesNothing : Obligations.StallChangesNothing := by
  intro s hhalt houtv
  refine ⟨exec_stall s, ?_⟩
  simp [outPins, hhalt, houtv]

/-! ### Runs with the steps they perform -/

/-- From s the machine performs exactly these steps, one after the other, and ends in t. -/
inductive Performs : List Instr → State → State → Prop
  | nil (s : State) : Performs [] s s
  | cons {s u t : State} {i : Instr} {is : List Instr} (hi : s.nextInstr = i) (hs : exec i s.advance = .next u)
      (h : Performs is u t) : Performs (i :: is) s t

theorem Performs.append {is js : List Instr} {s u t : State} (h : Performs is s u) (h' : Performs js u t) :
    Performs (is ++ js) s t := by
  induction h with
  | nil => exact h'
  | cons hi hs _ ih => exact .cons hi hs (ih h')

theorem Performs.trace_and_runSteps {is : List Instr} {s t : State} (h : Performs is s t) :
    trace is.length s = is ∧ runSteps is.length s = .next t := by
  induction h with
  | nil => exact ⟨rfl, rfl⟩
  | cons hi hs _ ih =>
    obtain ⟨htrace, hrun⟩ := ih
    have hstep := (step_eq _).trans (hi ▸ hs)
    simp [trace, runSteps, hstep, hi, htrace, hrun]

/-- From every state with P the machine performs these steps and is then in a state with Q. -/
def Leads (P : State → Prop) (is : List Instr) (Q : State → Prop) : Prop :=
  ∀ s, P s → ∃ t, Performs is s t ∧ Q t

theorem Leads.refl (P : State → Prop) : Leads P [] P := fun s hs => ⟨s, .nil s, hs⟩

theorem Leads.append {P Q R : State → Prop} {is js : List Instr} (h : Leads P is Q) (h' : Leads Q js R) :
    Leads P (is ++ js) R := by
  intro s hs
  obtain ⟨u, hsu, hu⟩ := h s hs
  obtain ⟨t, hut, ht⟩ := h' u hu
  exact ⟨t, hsu.append hut, ht⟩

/-! ### Where a block stands in the loop -/

/-- A block with configuration c, out of reset and not halted, which offers a byte or not, has done so many ticks of its
period and delivered so many bytes, and whose environment is scheduled to do es. -/
structure InLoop (c : Cfg) (offers : Bool) (ticks bytes : Nat) (es : List EnvEvent) (s : State) : Prop where
  cfg_eq     : s.cfg = c
  coherent   : s.coherent = true
  released   : heldInReset s.boot = false
  not_halted : s.halt = false
  outv_eq    : s.outv = offers
  sub_eq     : s.sub = ticks
  bytes_eq   : s.stream.length = bytes
  inputs_eq  : s.inputs = es

theorem resetOf_inLoop {c : Cfg} (hc : c.wellFormed = true) (es : List EnvEvent) :
    InLoop c false 0 0 es (State.resetOf c es) where
  cfg_eq := rfl
  coherent := by simp [coherent_iff, State.resetOf, hc, Cfg.nacc]
  released := rfl
  not_halted := rfl
  outv_eq := rfl
  sub_eq := rfl
  bytes_eq := rfl
  inputs_eq := rfl

theorem nextBoot_of_edge {s : State} {p : Pins} (he : s.nextEvent = .edge p) (hp : s.resetAsserted p = false) :
    s.nextBoot = .running := by
  simp [State.nextBoot, he, hp]

/-- The last tick of a period sets OUTV, and no tick clears it (R118). -/
theorem completeTick_outv (s : State) :
    s.completeTick.outv = (s.outv || decide (s.sub = s.cfg.nsub - 1)) := by
  obtain ⟨hn, h⟩ | ⟨hn, h⟩ := completeTick_cases s <;> simp [h, hn]

theorem completeTick_sub (s : State) :
    s.completeTick.sub = if s.sub = s.cfg.nsub - 1 then 0 else s.sub + 1 := by
  obtain ⟨hn, h⟩ | ⟨hn, h⟩ := completeTick_cases s <;> simp [h, hn]

/-- TICK leaves the registers in the shape the configuration gives them (R7, R131). -/
theorem tick_keeps_coherent {s : State} (h : s.coherent = true) :
    s.accAll.effAll.decideAll.groupBits.packGroup.completeTick.coherent = true := by
  obtain ⟨hc, hphase, -, -⟩ := (coherent_iff s).1 h
  simp [coherent_iff, hc, hphase, Cfg.nacc]

section
variable {c : Cfg} {offers e r : Bool} {n m : Nat} {es : List EnvEvent} {s : State}

/-- The step that the sink's answer and OUTV select in the loop (R130). -/
theorem InLoop.nextInstr_eq (h : InLoop c offers n m (.edge ⟨false, e, r⟩ :: es) s) :
    s.nextInstr = if offers then (if e then .fail else if r then .emit else .stall) else .tick := by
  rw [nextInstr_edge (nextEvent_cons h.inputs_eq), decodeSelect_selectWord, h.released, h.not_halted, h.outv_eq]
  cases e <;> cases r <;> rfl

/-- Taking an edge without reset uses up the event and moves the block no further. -/
theorem InLoop.advance (h : InLoop c offers n m (.edge ⟨false, e, r⟩ :: es) s) :
    InLoop c offers n m es s.advance where
  cfg_eq := h.cfg_eq
  coherent := h.coherent
  released := by
    rw [advance_boot, nextBoot_of_edge (nextEvent_cons h.inputs_eq) h.released]
    rfl
  not_halted := h.not_halted
  outv_eq := h.outv_eq
  sub_eq := h.sub_eq
  bytes_eq := h.bytes_eq
  inputs_eq := by rw [advance_inputs, h.inputs_eq, List.tail_cons]

/-- TICK moves the block on to the next tick of the period, or, at the last one, to offering the byte (R118). -/
theorem InLoop.tick (h : InLoop c offers n m es s) :
    InLoop c (offers || decide (n = c.nsub - 1)) (if n = c.nsub - 1 then 0 else n + 1) m es
      s.accAll.effAll.decideAll.groupBits.packGroup.completeTick where
  cfg_eq := by simp [h.cfg_eq]
  coherent := tick_keeps_coherent h.coherent
  released := by simp [h.released]
  not_halted := by simp [h.not_halted]
  outv_eq := by simp [completeTick_outv, h.cfg_eq, h.sub_eq, h.outv_eq]
  sub_eq := by simp [completeTick_sub, h.cfg_eq, h.sub_eq]
  bytes_eq := by simp [h.bytes_eq]
  inputs_eq := by simp [h.inputs_eq]

end

section
variable {c : Cfg} {e r : Bool} {n m : Nat} {es : List EnvEvent}

/-! ### One rule for each step of the loop -/

theorem leads_tick :
    Leads (InLoop c false n m (.edge ⟨false, e, r⟩ :: es)) [.tick]
      (InLoop c (decide (n = c.nsub - 1)) (if n = c.nsub - 1 then 0 else n + 1) m es) := fun _ h =>
  ⟨_, .cons h.nextInstr_eq (exec_tick_coherent h.advance.coherent) (.nil _), h.advance.tick⟩

theorem leads_stall :
    Leads (InLoop c true n m (.edge ⟨false, false, false⟩ :: es)) [.stall] (InLoop c true n m es) := fun s h =>
  ⟨s.advance, .cons h.nextInstr_eq (exec_stall _) (.nil _), h.advance⟩

theorem leads_emit :
    Leads (InLoop c true n m (.edge ⟨false, false, true⟩ :: es)) [.emit] (InLoop c false n (m + 1) es) := fun _ h =>
  ⟨_, .cons h.nextInstr_eq (exec_emit _) (.nil _),
    { h.advance with outv_eq := rfl, bytes_eq := by simp [h.bytes_eq] }⟩

/-! ### The loop (R137) -/

/-- The ticks that are left in a period, at least one, whatever the sink's pins say. -/
theorem leads_ticks {k : Nat} (hk : n + (k + 1) = c.nsub) :
    Leads (InLoop c false n m (List.replicate (k + 1) (.edge ⟨false, e, r⟩) ++ es)) (List.replicate (k + 1) .tick)
      (InLoop c true 0 m es) := by
  induction k generalizing n with
  | zero =>
    have hn : n = c.nsub - 1 := by omega
    simpa [← hn] using leads_tick (c := c) (n := n)
  | succ k ih =>
    have hn : n ≠ c.nsub - 1 := by omega
    have hfirst := leads_tick (c := c) (e := e) (r := r) (n := n) (m := m)
      (es := List.replicate (k + 1) (.edge ⟨false, e, r⟩) ++ es)
    simp only [hn, decide_false, if_false] at hfirst
    exact hfirst.append (ih (by omega))

theorem leads_stalls (w : Nat) :
    Leads (InLoop c true n m (List.replicate w (.edge ⟨false, false, false⟩) ++ es)) (List.replicate w .stall)
      (InLoop c true n m es) := by
  induction w with
  | zero => exact .refl _
  | succ w ih => exact leads_stall.append ih

/-- What the environment does in one period: NSUB edges with any pins of the sink, w busy answers, one acceptance. -/
def periodEvents (c : Cfg) (e r : Bool) (w : Nat) : List EnvEvent :=
  List.replicate c.nsub (.edge ⟨false, e, r⟩) ++ List.replicate w (.edge ⟨false, false, false⟩) ++
    [.edge ⟨false, false, true⟩]

/-- The steps of one period: NSUB TICKs, w STALLs, one EMIT. -/
def periodSteps (c : Cfg) (w : Nat) : List Instr :=
  List.replicate c.nsub .tick ++ List.replicate w .stall ++ [.emit]

theorem leads_period (hc : c.wellFormed = true) (w : Nat) :
    Leads (InLoop c false 0 m (periodEvents c e r w ++ es)) (periodSteps c w) (InLoop c false 0 (m + 1) es) := by
  obtain ⟨⟨-, -, hnsub, -⟩, -⟩ := (wellFormed_iff c).1 hc
  obtain ⟨k, hk⟩ := Nat.exists_eq_add_of_le' hnsub
  have hticks := leads_ticks (c := c) (e := e) (r := r) (n := 0) (m := m) (k := k)
    (es := List.replicate w (.edge ⟨false, false, false⟩) ++ .edge ⟨false, false, true⟩ :: es) (by omega)
  simpa [periodEvents, periodSteps, hk] using (hticks.append (leads_stalls w)).append leads_emit

theorem leads_loop (hc : c.wellFormed = true) (ws : List Nat) :
    Leads (InLoop c false 0 m (ws.flatMap (periodEvents c e r) ++ es)) (ws.flatMap (periodSteps c))
      (InLoop c false 0 (m + ws.length) es) := by
  induction ws generalizing m with
  | nil => exact .refl _
  | cons w ws ih =>
    have h := (leads_period (m := m) (e := e) (r := r) (es := ws.flatMap (periodEvents c e r) ++ es) hc w).append ih
    simpa [Nat.add_assoc, Nat.add_comm 1] using h

end

/-- Settles O40: the loop rule by induction on the list of stall counts, started from the state after reset. -/
theorem loopIsTicksStallsEmit : Obligations.LoopIsTicksStallsEmit := by
  intro c ws e r rest hc period s k
  obtain ⟨t, hrun, ht⟩ := leads_loop (e := e) (r := r) hc ws s (resetOf_inLoop hc _)
  obtain ⟨htrace, hsteps⟩ := hrun.trace_and_runSteps
  have hk : (ws.flatMap (periodSteps c)).length = k := by
    simp [k, period, List.length_flatMap, periodSteps]
  rw [hk] at htrace hsteps
  exact ⟨htrace, t, hsteps, by simpa using ht.bytes_eq, ht.inputs_eq⟩

end Sys2Proof.Machine

/-!
PROOFS. TICK (42_step_ops.md R131): its result written field by field, and the packed value in plain number arithmetic.
-/

namespace Sys2Proof.Machine

/-! ### The state that TICK leaves -/

/-- The state that TICK leaves when its guard lets it through. -/
def State.ticked (s : State) : State := s.accAll.effAll.decideAll.groupBits.packGroup.completeTick

theorem exec_tick_of_coherent {s : State} (h : s.coherent = true) : exec .tick s = .next s.ticked :=
  exec_tick_coherent h

/-- The phases after ACC of every accumulator (R95). -/
def State.nextPhase (s : State) : List Word := List.zipWith (fun p a => accSum p a.ftw) s.phase s.cfg.accs

/-- The group that the tick decides on the new phases (R97, R110, R112). -/
def State.nextGroup (s : State) : Byte := groupOf s.cfg.chans ((s.cfg.chans.map s.accAll.effOf).map decideBit)

/-- The packed value of the tick (R115). -/
def State.nextPacked (s : State) : Byte := packed s.cfg.stride s.sample s.nextGroup

@[simp] theorem ticked_cfg (s : State) : s.ticked.cfg = s.cfg := by simp [State.ticked]
@[simp] theorem ticked_phase (s : State) : s.ticked.phase = s.nextPhase := by simp [State.ticked, State.nextPhase]

/-- TICK ends like COMPLETE: the last tick of a period hands the packed value over, any other stores it (R118). -/
theorem ticked_cases (s : State) :
    (s.sub = s.cfg.nsub - 1 ∧ s.ticked =
      { s with phase := s.nextPhase, out := s.nextPacked, outv := true, sample := 0, sub := 0,
               work := Work.clear s.cfg.nch }) ∨
    (s.sub ≠ s.cfg.nsub - 1 ∧ s.ticked =
      { s with phase := s.nextPhase, sample := s.nextPacked, sub := s.sub + 1, work := Work.clear s.cfg.nch }) :=
  completeTick_cases s.accAll.effAll.decideAll.groupBits.packGroup

theorem nextPhase_length {s : State} (h : s.phase.length = s.cfg.nacc) : s.nextPhase.length = s.phase.length := by
  simp [State.nextPhase, h, Cfg.nacc]

theorem nextPhase_getElem? {s : State} {i : Nat} {p : Word} {a : AccCfg} (hp : s.phase[i]? = some p)
    (ha : s.cfg.accs[i]? = some a) : s.nextPhase[i]? = some (accSum p a.ftw) := by
  simp [State.nextPhase, List.getElem?_zipWith, hp, ha]

/-! ### The group and the packed value as numbers -/

theorem decideBit_eq_decide (e : Word) : decideBit e = decide (2 ^ 31 ≤ e.toNat) := by
  rw [Bool.eq_iff_iff, decideBit_iff, decide_eq_true_iff]

theorem decisionNumber_eq_toNat (phases : Nat → Nat) (ch : ChanCfg) :
    decisionNumber phases ch = (decide (2 ^ 31 ≤ (phases ch.src + ch.delta.toNat) % 2 ^ 32)).toNat := by
  simp only [decisionNumber, Bool.toNat, Bool.cond_decide]

/-- PHASE[i] as the number that R65 reads. -/
def State.phaseNat (s : State) (i : Nat) : Nat := (s.phase.getD i 0).toNat

/-- The group of R67 in plain numbers is the OR of the placed decisions. -/
theorem groupNumber_eq (phases : Nat → Nat) (chans : List ChanCfg) :
    groupNumber phases chans =
      orOfPlacedBits chans (chans.map fun ch => decide (2 ^ 31 ≤ (phases ch.src + ch.delta.toNat) % 2 ^ 32)) := by
  induction chans with
  | nil => rfl
  | cons ch chans ih => simp only [groupNumber, List.map_cons, orOfPlacedBits_cons, decisionNumber_eq_toNat, ih]

theorem groupNumber_lt {c : Cfg} (h : c.wellFormed = true) (phases : Nat → Nat) :
    groupNumber phases c.chans < 2 ^ c.stride := by
  rw [groupNumber_eq]
  exact orOfPlacedBits_lt (wellFormed_pos_lt h) _

theorem effOf_toNat (s : State) (ch : ChanCfg) :
    (s.effOf ch).toNat = (s.phaseNat ch.src + ch.delta.toNat) % 2 ^ 32 :=
  BitVec.toNat_add _ _

theorem groupNumber_phaseNat (s : State) (chans : List ChanCfg) :
    groupNumber s.phaseNat chans = orOfPlacedBits chans ((chans.map s.effOf).map decideBit) := by
  simp only [groupNumber_eq, List.map_map, Function.comp_def, decideBit_eq_decide, effOf_toNat]

theorem phaseNat_accAll (s : State) : s.accAll.phaseNat = s.ticked.phaseNat := by
  funext i
  simp [State.phaseNat, State.nextPhase]

/-- The tick packs the group decided on the phases after the update (R98, D7). -/
theorem nextPacked_toNat {s : State} (h : s.cfg.wellFormed = true) :
    s.nextPacked.toNat =
      ((s.sample.toNat <<< s.cfg.stride) ||| groupNumber s.ticked.phaseNat s.cfg.chans) % 256 := by
  rw [State.nextPacked, packedIsShiftThenOr, State.nextGroup, groupOf_wellFormed h, ← groupNumber_phaseNat,
    phaseNat_accAll]

/-- The last tick of a period offers the packed value and starts the next period. -/
theorem ticked_last {s : State} (hw : s.cfg.wellFormed = true) (hlast : s.sub = s.cfg.nsub - 1) :
    s.ticked.out.toNat = ((s.sample.toNat <<< s.cfg.stride) ||| groupNumber s.ticked.phaseNat s.cfg.chans) % 256 ∧
      s.ticked.outv = true ∧ s.ticked.sample = 0 ∧ s.ticked.sub = 0 := by
  obtain ⟨-, h⟩ | ⟨hnot, -⟩ := ticked_cases s
  · rw [← nextPacked_toNat hw, h]
    exact ⟨rfl, rfl, rfl, rfl⟩
  · exact absurd hlast hnot

/-- Any other tick stores the packed value and counts. -/
theorem ticked_not_last {s : State} (hw : s.cfg.wellFormed = true) (hnot : s.sub ≠ s.cfg.nsub - 1) :
    s.ticked.out = s.out ∧ s.ticked.outv = s.outv ∧
      s.ticked.sample.toNat =
        ((s.sample.toNat <<< s.cfg.stride) ||| groupNumber s.ticked.phaseNat s.cfg.chans) % 256 ∧
      s.ticked.sub = s.sub + 1 := by
  obtain ⟨hlast, -⟩ | ⟨-, h⟩ := ticked_cases s
  · exact absurd hlast hnot
  · rw [← nextPacked_toNat hw, h]
    exact ⟨rfl, rfl, rfl, rfl⟩

/-- Settles O21: the two endings of TICK, their packed value read as a number. -/
theorem tickAdvancesDecidesPacksCounts : Obligations.TickAdvancesDecidesPacksCounts := by
  intro s hc _ _
  obtain ⟨hw, hphase, -, -⟩ := (coherent_iff s).1 hc
  refine ⟨s.ticked, exec_tick_of_coherent hc, by rw [ticked_phase, nextPhase_length hphase], fun i p a hp ha => ?_,
    ?_, ?_⟩
  · rw [ticked_phase, nextPhase_getElem? hp ha, accSum_eq_ofNat_mod]
  · intro g v
    split
    case isTrue hlast => exact ticked_last hw hlast
    case isFalse hnot => exact ticked_not_last hw hnot
  · obtain ⟨-, h⟩ | ⟨-, h⟩ := ticked_cases s <;> rw [h]

/-! ### The byte layouts of the two variants (R69, R70) -/

/-- At the start of a period SAMPLE is zero (R117). -/
theorem Inv_sample_eq_zero {s : State} (h : s.Inv) (hb : heldInReset s.boot = false) (hsub : s.sub = 0) :
    s.sample = 0 := by
  obtain ⟨-, hshape⟩ := h
  obtain ⟨-, -, -, hzero, -⟩ := hshape hb
  exact hzero hsub

theorem Inv_sub_lt {s : State} (h : s.Inv) (hb : heldInReset s.boot = false) : s.sub < s.cfg.nsub := by
  obtain ⟨-, hshape⟩ := h
  obtain ⟨-, -, hsub, -⟩ := hshape hb
  exact hsub

/-- A channel with no offset is decided by the phase itself. -/
theorem decisionNumber_no_delta (s : State) (i pos : Nat) :
    decisionNumber s.phaseNat ⟨i, 0, pos⟩ = (decide (2 ^ 31 ≤ s.phaseNat i)).toNat := by
  have hmod : (s.phaseNat i + (0 : Word).toNat) % 2 ^ 32 = s.phaseNat i := Nat.mod_eq_of_lt (BitVec.isLt _)
  rw [decisionNumber_eq_toNat, hmod]

theorem groupNumber_cfgA (s : State) (f : Word) :
    groupNumber s.phaseNat (cfgA f).chans = (decide (2 ^ 31 ≤ s.phaseNat 0)).toNat := by
  simp only [cfgA, groupNumber, decisionNumber_no_delta, Nat.shiftLeft_zero, Nat.or_zero]

/-- The group of CFG_B is (m << 1) | r (R67). -/
theorem groupNumber_cfgB (s : State) (f d : Word) :
    groupNumber s.phaseNat (cfgB f d).chans =
      (decide (2 ^ 31 ≤ s.phaseNat 0)).toNat |||
        (decide (2 ^ 31 ≤ (s.phaseNat 0 + d.toNat) % 2 ^ 32)).toNat <<< 1 := by
  simp only [cfgB, groupNumber, decisionNumber_no_delta, decisionNumber_eq_toNat s.phaseNat ⟨0, d, 1⟩,
    Nat.shiftLeft_zero, Nat.or_zero]

theorem sampleA_word (r : Bool) : (0 <<< 2 ||| r.toNat) % 256 = (encode (.sampleA r)).word := by
  revert r; decide

theorem sampleB_word (m1 r1 m2 r2 : Bool) :
    (((r1.toNat ||| m1.toNat <<< 1) % 256) <<< 2 ||| (r2.toNat ||| m2.toNat <<< 1)) % 256 =
      (encode (.sampleB m1 r1 m2 r2)).word := by
  revert m1 r1 m2 r2; decide

theorem sampleBStride4_word (m1 r1 m2 r2 : Bool) :
    (((r1.toNat ||| m1.toNat <<< 1) % 256) <<< 4 ||| (r2.toNat ||| m2.toNat <<< 1)) % 256 =
      (encode (.sampleBStride4 m1 r1 m2 r2)).word := by
  revert m1 r1 m2 r2; decide

/-- A word of SAMPLE_A is one of two bytes. -/
theorem eq_zero_or_one_of_sampleA {b : Byte} {r : Bool} (h : b.toNat = (encode (.sampleA r)).word) :
    b = 0x00#8 ∨ b = 0x01#8 := by
  cases r
  · exact .inl (BitVec.eq_of_toNat_eq h)
  · exact .inr (BitVec.eq_of_toNat_eq h)

/-- Settles O23: the period is one tick, SAMPLE starts at zero, and the group is the decision of the new phase. -/
theorem variantAByteLayout : Obligations.VariantAByteLayout := by
  intro f s hcfg hinv hb _ _
  have hw : s.cfg.wellFormed = true := hcfg ▸ cfgA_wellFormed f
  have hsub : s.sub = 0 := Nat.lt_one_iff.1 (by simpa [hcfg, cfgA] using Inv_sub_lt hinv hb)
  obtain ⟨hout, houtv, -⟩ := ticked_last hw (by simp [hsub, hcfg, cfgA])
  rw [Inv_sample_eq_zero hinv hb hsub, hcfg, groupNumber_cfgA] at hout
  have hbyte := hout.trans (sampleA_word _)
  exact ⟨s.ticked, exec_tick_of_coherent (Inv_coherent hinv hb), houtv, hbyte, eq_zero_or_one_of_sampleA hbyte⟩

/-- Two ticks from the start of a period of CFG_B, with any STRIDE: each tick's group is (m << 1) | r. -/
theorem two_ticks_cfgB {s : State} {f d : Word} (hc : s.coherent = true) (hchans : s.cfg.chans = (cfgB f d).chans)
    (hnsub : s.cfg.nsub = 2) (hsub : s.sub = 0) (hsample : s.sample = 0) :
    let r := fun (u : State) => decide (2 ^ 31 ≤ u.phaseNat 0)
    let m := fun (u : State) => decide (2 ^ 31 ≤ (u.phaseNat 0 + d.toNat) % 2 ^ 32)
    ∃ t u : State, exec .tick s = .next t ∧ exec .tick t = .next u ∧ t.outv = s.outv ∧ u.outv = true ∧
      u.out.toNat =
        ((((r t).toNat ||| (m t).toNat <<< 1) % 256) <<< s.cfg.stride |||
          ((r u).toNat ||| (m u).toNat <<< 1)) % 256 := by
  obtain ⟨hw, -⟩ := (coherent_iff s).1 hc
  obtain ⟨-, houtv, hsample', hsub'⟩ := ticked_not_last hw (by omega)
  obtain ⟨hout, houtv', -⟩ := ticked_last (s := s.ticked) (by simpa using hw) (by simp [hsub', hsub, hnsub])
  have hzero : s.sample.toNat = 0 := by rw [hsample]; rfl
  refine ⟨s.ticked, s.ticked.ticked, exec_tick_of_coherent hc, exec_tick_of_coherent (tick_keeps_coherent hc), houtv,
    houtv', ?_⟩
  rw [hout, hsample', hzero, ticked_cfg, hchans, groupNumber_cfgB, groupNumber_cfgB, Nat.zero_shiftLeft, Nat.zero_or]

/-- Settles O24: two ticks of CFG_B, their two groups read as the fields of the layout with either STRIDE. -/
theorem variantBByteLayout : Obligations.VariantBByteLayout := by
  intro f d s hinv hb _ houtv hsub r m
  have hc := Inv_coherent hinv hb
  have hsample := Inv_sample_eq_zero hinv hb hsub
  constructor
  · intro hcfg
    obtain ⟨t, u, ht, hu, houtv1, houtv2, hout⟩ :=
      two_ticks_cfgB (f := f) (d := d) hc (by rw [hcfg]) (by rw [hcfg]; rfl) hsub hsample
    rw [hcfg] at hout
    exact ⟨t, u, ht, hu, houtv1.trans houtv, houtv2, hout.trans (sampleB_word _ _ _ _)⟩
  · intro hcfg
    obtain ⟨t, u, ht, hu, houtv1, houtv2, hout⟩ :=
      two_ticks_cfgB (f := f) (d := d) hc (by rw [hcfg]; rfl) (by rw [hcfg]; rfl) hsub hsample
    rw [hcfg] at hout
    exact ⟨t, u, ht, hu, houtv1.trans houtv, houtv2, hout.trans (sampleBStride4_word _ _ _ _)⟩

end Sys2Proof.Machine

/-!
PROOFS. Runs without RESET and CONFIGURE: a rule for an invariant that counts the ticks done, and the closed forms and
accounts of R36, R45, R47 and R161 as invariants of that kind.
-/

namespace Sys2Proof.Machine

/-! ### A run as the list of the steps it performs -/

theorem performs_trace {k : Nat} {s t : State} (h : runSteps k s = .next t) : Performs (trace k s) s t := by
  induction k generalizing s with
  | zero => cases h; exact .nil _
  | succ k ih =>
    obtain ⟨u, hu, hrun⟩ := andThen_eq_next h
    simp only [trace, hu]
    exact .cons rfl hu (ih hrun)

/-! ### What a step of a run without RESET and CONFIGURE can do (R130) -/

/-- The step selected at a clock edge, by the flags and the pins. -/
theorem nextInstr_of_edge {s : State} {p : Pins} (he : s.nextEvent = .edge p) :
    s.nextInstr =
      if p.rst || heldInReset s.boot then .reset
      else if s.halt then .hold
      else if s.outv then
        (match sinkAnswer p with
         | .error => .fail
         | .accept => .emit
         | .busy => .stall)
      else .tick :=
  (nextInstr_edge he).trans (decodeSelect_selectWord s p)

/-- TICK is selected only while nothing is offered, the emitter's steps only while a byte is (R130). -/
theorem outv_of_nextInstr (s : State) :
    (s.nextInstr = .tick → s.outv = false) ∧
      (s.nextInstr = .emit ∨ s.nextInstr = .fail ∨ s.nextInstr = .stall → s.outv = true) := by
  cases he : s.nextEvent with
  | configure r => simp [nextInstr_configure he]
  | edge p =>
    rw [nextInstr_of_edge he]
    split_ifs with _ _ houtv
    · simp
    · simp
    · cases sinkAnswer p <;> simp [houtv]
    · simp [houtv]

/-- A step that is neither RESET nor CONFIGURE is a TICK with nothing offered, or the EMIT of the offered byte, or
leaves everything but the schedule, the start-up condition and HALT as it was. -/
theorem running_step_cases {s t : State} (h : step s = .next t) (hr : s.nextInstr ≠ .reset)
    (hc : ∀ req, s.nextInstr ≠ .configure req) :
    (s.nextInstr = .tick ∧ s.coherent = true ∧ s.outv = false ∧ t = s.advance.ticked) ∨
    (s.nextInstr = .emit ∧ s.outv = true ∧ t = { s.advance with stream := s.stream ++ [s.out], outv := false }) ∨
    (s.nextInstr ≠ .tick ∧ s.nextInstr ≠ .emit ∧ ∃ b, t = { s.advance with halt := b }) := by
  rw [step_eq] at h
  obtain ⟨htick, hsink⟩ := outv_of_nextInstr s
  obtain hi | hi | hi | hi | hi | hi | ⟨req, hi⟩ := nextInstr_cases s
  · exact absurd hi hr
  · rw [hi] at h; cases h
    exact .inr (.inr ⟨by simp [hi], by simp [hi], s.halt, rfl⟩)
  · rw [hi] at h
    obtain ⟨hcoh, rfl⟩ := exec_tick_next h
    exact .inl ⟨hi, hcoh, htick hi, rfl⟩
  · rw [hi] at h; cases h
    exact .inr (.inr ⟨by simp [hi], by simp [hi], true, rfl⟩)
  · rw [hi] at h; cases h
    exact .inr (.inl ⟨hi, hsink (.inl hi), rfl⟩)
  · rw [hi] at h; cases h
    exact .inr (.inr ⟨by simp [hi], by simp [hi], s.halt, rfl⟩)
  · exact absurd hi (hc req)

theorem keepsRunning_cons {i : Instr} {is : List Instr} (h : keepsRunning (i :: is) = true) :
    i ≠ .reset ∧ (∀ req, i ≠ .configure req) ∧ keepsRunning is = true := by
  rw [keepsRunning, List.all_cons, Bool.and_eq_true] at h
  obtain ⟨hi, his⟩ := h
  refine ⟨?_, ?_, his⟩
  · rintro rfl; simp at hi
  · rintro req rfl; simp at hi

/-- An invariant that counts the ticks: kept by TICK with the count raised by one, by EMIT and by every step that leaves
the registers alone. Such an invariant holds along every run without RESET and CONFIGURE. -/
structure TickInvariant (P : Nat → State → Prop) : Prop where
  tick : ∀ {n s}, P n s → s.coherent = true → s.outv = false → P (n + 1) s.advance.ticked
  emit : ∀ {n s}, P n s → s.outv = true → P n { s.advance with stream := s.stream ++ [s.out], outv := false }
  idle : ∀ {n s} (b : Bool), P n s → P n { s.advance with halt := b }

theorem TickInvariant.performs {P : Nat → State → Prop} (hP : TickInvariant P) {is : List Instr} {s t : State}
    (h : Performs is s t) (hk : keepsRunning is = true) {n : Nat} (hs : P n s) : P (n + is.count .tick) t := by
  induction h generalizing n with
  | nil => exact hs
  | @cons s u t i is hi hstep _ ih =>
    obtain ⟨hr, hc, hkis⟩ := keepsRunning_cons hk
    subst hi
    obtain ⟨hi, hcoh, hv, rfl⟩ | ⟨hi, hv, rfl⟩ | ⟨ht, -, b, rfl⟩ := running_step_cases hstep hr hc
    · rw [hi, List.count_cons_self, Nat.add_comm _ 1, ← Nat.add_assoc]
      exact ih hkis (hP.tick hs hcoh hv)
    · rw [hi, List.count_cons_of_ne (by simp)]
      exact ih hkis (hP.emit hs hv)
    · rw [List.count_cons_of_ne ht]
      exact ih hkis (hP.idle b hs)

/-- The rule for a run of k steps. -/
theorem TickInvariant.runSteps {P : Nat → State → Prop} (hP : TickInvariant P) {k : Nat} {s t : State}
    (h : runSteps k s = .next t) (hk : keepsRunning (trace k s) = true) (hs : P 0 s) :
    P ((trace k s).count .tick) t := by
  simpa using hP.performs (performs_trace h) hk hs

/-! ### The phase (R36) -/

/-- Adding a multiple of 2^32, and nothing else, gives the same word back. -/
theorem ofNat_add_mod_eq_self_iff {p : Word} {x : Nat} :
    BitVec.ofNat 32 ((p.toNat + x) % 2 ^ 32) = p ↔ 2 ^ 32 ∣ x := by
  have hp := p.isLt
  rw [← BitVec.toNat_inj, BitVec.toNat_ofNat, Nat.mod_mod]
  omega

/-- Register i, which had p when counting began, has advanced by its tuning word n times. -/
def PhaseAfter (i : Nat) (p : Word) (a : AccCfg) (n : Nat) (s : State) : Prop :=
  s.cfg.accs[i]? = some a ∧ s.phase[i]? = some (BitVec.ofNat 32 ((p.toNat + n * a.ftw.toNat) % 2 ^ 32))

theorem accSum_ofNat_mod (m : Nat) (f : Word) :
    accSum (BitVec.ofNat 32 (m % 2 ^ 32)) f = BitVec.ofNat 32 ((m + f.toNat) % 2 ^ 32) := by
  rw [accSum_eq_ofNat_mod, BitVec.toNat_ofNat, Nat.mod_mod, Nat.mod_add_mod]

theorem phaseAfter_tickInvariant (i : Nat) (p : Word) (a : AccCfg) : TickInvariant (PhaseAfter i p a) where
  tick := by
    intro n s ⟨ha, hp⟩ _ _
    refine ⟨by simpa using ha, ?_⟩
    rw [ticked_phase, nextPhase_getElem? (s := s.advance) hp ha, accSum_ofNat_mod, Nat.add_mul, Nat.one_mul,
      Nat.add_assoc]
  emit h _ := h
  idle _ h := h

theorem runSteps_phase {k : Nat} {s t : State} (h : runSteps k s = .next t) (hk : keepsRunning (trace k s) = true)
    {i : Nat} {p : Word} {a : AccCfg} (hp : s.phase[i]? = some p) (ha : s.cfg.accs[i]? = some a) :
    t.phase[i]? = some (BitVec.ofNat 32 ((p.toNat + (trace k s).count .tick * a.ftw.toNat) % 2 ^ 32)) := by
  have hs : PhaseAfter i p a 0 s := ⟨ha, by rw [Nat.zero_mul, ofNat_add_mod_eq_self_iff.2 (dvd_zero _), hp]⟩
  exact ((phaseAfter_tickInvariant i p a).runSteps h hk hs).2

/-- Settles O10: the phase after n ticks is an invariant that counts the ticks. -/
theorem phaseClosedForm : Obligations.PhaseClosedForm :=
  fun _ _ _ h hk _ _ _ hp ha => runSteps_phase h hk hp ha

/-- A multiple of f is a multiple of m exactly when m / gcd(f, m) divides the factor. -/
theorem dvd_mul_iff_div_gcd_dvd {m : Nat} (hm : 0 < m) (n f : Nat) : m ∣ n * f ↔ m / Nat.gcd f m ∣ n := by
  rw [← ZMod.natCast_eq_zero_iff, Nat.cast_mul, ← nsmul_eq_mul, ← addOrderOf_dvd_iff_nsmul_eq_zero,
    ZMod.addOrderOf_coe f hm.ne', Nat.gcd_comm]

/-- Settles O11: by the closed form, the phase is back when the tuning words added make a multiple of 2^32. -/
theorem phasePeriod : Obligations.PhasePeriod := by
  intro k s t h hk i p a hp ha
  rw [runSteps_phase h hk hp ha, Option.some_inj, ofNat_add_mod_eq_self_iff]
  exact dvd_mul_iff_div_gcd_dvd (Nat.two_pow_pos 32) _ _

/-! ### The stream and the ticks since a RESET (R45, R47, R161) -/

theorem groupNumber_congr {f g : Nat → Nat} {chans : List ChanCfg} (h : ∀ ch ∈ chans, f ch.src = g ch.src) :
    groupNumber f chans = groupNumber g chans := by
  induction chans with
  | nil => rfl
  | cons ch chans ih =>
    obtain ⟨hch, hchs⟩ := List.forall_mem_cons.1 h
    simp only [groupNumber, decisionNumber, hch, ih hchs]

theorem phaseNumber_succ (c : Cfg) (n i : Nat) :
    phaseNumber c (n + 1) i = (phaseNumber c n i + (c.accs.getD i ⟨0, 0⟩).ftw.toNat) % 2 ^ 32 := by
  rw [phaseNumber, phaseNumber, Nat.mod_add_mod, Nat.add_mul, Nat.one_mul, Nat.add_assoc]

theorem ticked_phaseNat {s : State} (hc : s.coherent = true) {i : Nat} (hi : i < s.cfg.nacc) :
    s.ticked.phaseNat i = (s.phaseNat i + (s.cfg.accs.getD i ⟨0, 0⟩).ftw.toNat) % 2 ^ 32 := by
  obtain ⟨-, hphase, -, -⟩ := (coherent_iff s).1 hc
  have hi' : i < s.cfg.accs.length := hi
  have hp : s.phase[i]? = some s.phase[i] := List.getElem?_eq_getElem (hphase ▸ hi)
  have ha : s.cfg.accs[i]? = some s.cfg.accs[i] := List.getElem?_eq_getElem hi'
  simp [State.phaseNat, List.getD_eq_getElem?_getD, nextPhase_getElem? hp ha, hp, ha, accSum]

/-- The first m bytes of R45, as bytes. -/
def firstBytes (c : Cfg) (m : Nat) : List Byte := (List.range m).map fun n => BitVec.ofNat 8 (byteAt c n)

@[simp] theorem firstBytes_length (c : Cfg) (m : Nat) : (firstBytes c m).length = m := by simp [firstBytes]

theorem firstBytes_succ (c : Cfg) (m : Nat) :
    firstBytes c (m + 1) = firstBytes c m ++ [BitVec.ofNat 8 (byteAt c m)] := by
  simp [firstBytes, List.range_succ]

theorem firstBytes_isPrefix {c : Cfg} {m m' : Nat} (h : m ≤ m') : firstBytes c m <+: firstBytes c m' := by
  obtain ⟨d, rfl⟩ := Nat.exists_eq_add_of_le h
  rw [firstBytes, firstBytes, List.range_add, List.map_append]
  exact List.prefix_append _ _

/-- The periods completed: one for each byte delivered and one for a byte that waits. -/
def State.periodsDone (s : State) (m : Nat) : Nat := m + if s.outv then 1 else 0

/-- Where a block with configuration c stands n ticks and m delivered bytes after a RESET before which it had delivered
base. -/
structure Delivered (c : Cfg) (base : List Byte) (n m : Nat) (s : State) : Prop where
  cfg_eq    : s.cfg = c
  phase_eq  : ∀ i < c.nacc, s.phaseNat i = phaseNumber c n i
  stream_eq : s.stream = base ++ firstBytes c m
  ticks_eq  : n = c.nsub * s.periodsDone m + s.sub
  sub_lt    : s.sub < c.nsub
  sample_eq : s.sample.toNat = packedNumber c.stride (fun t => groupAt c (s.periodsDone m * c.nsub + t + 1)) s.sub
  out_eq    : s.outv = true → s.out = BitVec.ofNat 8 (byteAt c m)

section
variable {c : Cfg} {base : List Byte} {n m : Nat} {s : State}

/-- The group that the next tick packs is the group of the closed form. -/
theorem Delivered.groupNumber_ticked (h : Delivered c base n m s) (hc : s.coherent = true) :
    groupNumber s.ticked.phaseNat c.chans = groupAt c (n + 1) := by
  obtain ⟨hw, -⟩ := (coherent_iff s).1 hc
  obtain ⟨-, hsrc, -⟩ := (wellFormed_iff _).1 hw
  rw [h.cfg_eq] at hsrc
  refine groupNumber_congr fun ch hch => ?_
  rw [ticked_phaseNat hc (by rw [h.cfg_eq]; exact hsrc ch hch), h.phase_eq _ (hsrc ch hch), phaseNumber_succ, h.cfg_eq]

/-- The value that the next tick packs is one more step of the shift-and-OR of R68. -/
theorem Delivered.packed_ticked (h : Delivered c base n m s) (hc : s.coherent = true) (hv : s.outv = false) :
    ((s.sample.toNat <<< s.cfg.stride) ||| groupNumber s.ticked.phaseNat s.cfg.chans) % 256 =
      packedNumber c.stride (fun t => groupAt c (m * c.nsub + t + 1)) (s.sub + 1) := by
  have hm : s.periodsDone m = m := by simp [State.periodsDone, hv]
  have hn : n = m * c.nsub + s.sub := by rw [Nat.mul_comm, ← hm]; exact h.ticks_eq
  rw [h.cfg_eq, h.groupNumber_ticked hc, h.sample_eq, hm, packedNumber, hn]

theorem Delivered.advance (h : Delivered c base n m s) : Delivered c base n m s.advance := { h with }

theorem Delivered.tick (h : Delivered c base n m s) (hc : s.coherent = true) (hv : s.outv = false) :
    Delivered c base (n + 1) m s.ticked := by
  obtain ⟨hw, -⟩ := (coherent_iff s).1 hc
  have hpacked := h.packed_ticked hc hv
  have hticks := h.ticks_eq
  have hsub := h.sub_lt
  have hcfg := h.cfg_eq
  have hphase : ∀ i < c.nacc, s.ticked.phaseNat i = phaseNumber c (n + 1) i := fun i hi => by
    rw [ticked_phaseNat hc (hcfg ▸ hi), h.phase_eq i hi, phaseNumber_succ, hcfg]
  have hstream : s.ticked.stream = base ++ firstBytes c m := by
    rw [← h.stream_eq]; simp [State.ticked]
  by_cases hlast : s.sub = s.cfg.nsub - 1
  · obtain ⟨hout, houtv, hsample, hsub'⟩ := ticked_last hw hlast
    have hend : s.sub + 1 = c.nsub := by rw [hcfg] at hlast; omega
    refine ⟨by simpa using hcfg, hphase, hstream, ?_, by omega, by simp [hsample, hsub', packedNumber], fun _ => ?_⟩
    · simp only [State.periodsDone, hv, houtv, hsub'] at hticks ⊢
      simp [Nat.mul_add, hticks, ← hend, Nat.add_assoc]
    · rw [hpacked, hend] at hout
      rw [byteAt, ← hout, BitVec.ofNat_toNat, BitVec.setWidth_eq]
  · obtain ⟨hout, houtv, hsample, hsub'⟩ := ticked_not_last hw hlast
    have hm : s.ticked.periodsDone m = m := by simp [State.periodsDone, houtv, hv]
    refine ⟨by simpa using hcfg, hphase, hstream, ?_, by rw [hcfg] at hlast; omega, ?_, by simp [houtv, hv]⟩
    · simp only [State.periodsDone, hv, houtv, hsub'] at hticks ⊢
      omega
    · rw [hm, hsample, hsub', hpacked]

theorem Delivered.emit (h : Delivered c base n m s) (hv : s.outv = true) :
    Delivered c base n (m + 1) { s with stream := s.stream ++ [s.out], outv := false } :=
  { h with
    stream_eq := by simp [h.stream_eq, h.out_eq hv, firstBytes_succ]
    ticks_eq := by simpa [State.periodsDone, hv] using h.ticks_eq
    sample_eq := by simpa [State.periodsDone, hv] using h.sample_eq
    out_eq := by simp }

end

theorem delivered_tickInvariant (c : Cfg) (base : List Byte) :
    TickInvariant fun n s => ∃ m, Delivered c base n m s where
  tick := fun ⟨m, h⟩ hc hv => ⟨m, h.advance.tick hc hv⟩
  emit := fun ⟨m, h⟩ hv => ⟨m + 1, h.advance.emit hv⟩
  idle := fun _ ⟨m, h⟩ => ⟨m, { h with }⟩

theorem resetAll_delivered {s : State} (hw : s.cfg.wellFormed = true) :
    Delivered s.cfg s.stream 0 0 s.resetAll where
  cfg_eq := rfl
  phase_eq i hi := by
    have hi' : i < s.cfg.accs.length := hi
    simp [State.phaseNat, phaseNumber, hi', Nat.mod_eq_of_lt (BitVec.isLt _)]
  stream_eq := by simp [firstBytes]
  ticks_eq := rfl
  sub_lt := by
    obtain ⟨⟨-, -, hnsub, -⟩, -⟩ := (wellFormed_iff _).1 hw
    exact hnsub
  sample_eq := rfl
  out_eq := by simp

/-- After a RESET of any state of a well-formed block, a run delivers the first bytes of the closed form, and every tick
is accounted for. -/
theorem runSteps_after_reset {s r t : State} {k : Nat} (hw : s.cfg.wellFormed = true) (hr : exec .reset s = .next r)
    (h : runSteps k r = .next t) (hk : keepsRunning (trace k r) = true) :
    ∃ m, Delivered s.cfg s.stream ((trace k r).count .tick) m t := by
  rw [exec_reset] at hr
  cases hr
  exact (delivered_tickInvariant s.cfg s.stream).runSteps h hk ⟨0, resetAll_delivered hw⟩

theorem packedNumber_lt (stride : Nat) (g : Nat → Nat) (n : Nat) : packedNumber stride g n < 256 := by
  cases n with
  | zero => exact Nat.zero_lt_succ _
  | succ n => exact Nat.mod_lt _ (by decide)

/-- Settles O38: the bytes since the RESET are the first bytes of the closed form. -/
theorem streamClosedForm : Obligations.StreamClosedForm := by
  intro s r t k hw hr h hk
  obtain ⟨m, hm⟩ := runSteps_after_reset hw hr h hk
  rw [hm.stream_eq]
  refine ⟨List.prefix_append _ _, fun n b hb => ?_⟩
  rw [List.getElem?_append_right (Nat.le_add_right _ _), Nat.add_sub_cancel_left, firstBytes, List.getElem?_map,
    Option.map_eq_some_iff] at hb
  obtain ⟨j, hj, rfl⟩ := hb
  obtain ⟨_, hn⟩ := List.getElem?_eq_some_iff.1 hj
  rw [List.getElem_range] at hn
  subst hn
  exact Nat.mod_eq_of_lt (packedNumber_lt _ _ _)

/-- Settles O39: m is the number of bytes delivered since. -/
theorem ticksAreAccountedFor : Obligations.TicksAreAccountedFor := by
  intro s r t k hw hr h hk
  obtain ⟨m, hm⟩ := runSteps_after_reset hw hr h hk
  exact ⟨m, by simp [hm.stream_eq], hm.ticks_eq⟩

/-- Settles O41: both streams since begin the closed form of the one configuration. -/
theorem restartReproducesTheStream : Obligations.RestartReproducesTheStream := by
  intro s s' r r' t t' k k' hw hcfg hr h hk hr' h' hk'
  obtain ⟨m, hm⟩ := runSteps_after_reset hw hr h hk
  obtain ⟨m', hm'⟩ := runSteps_after_reset (hcfg ▸ hw) hr' h' hk'
  rw [hm.stream_eq, hm'.stream_eq, hcfg, List.drop_left, List.drop_left]
  exact (Nat.le_total m m').imp firstBytes_isPrefix firstBytes_isPrefix

end Sys2Proof.Machine

/-!
PROOFS. CONFIGURE (40_accumulate.md R63, R90, R92): rounding to the nearest integer, the checks of the rates and of
WF1 to WF5, and the configuration that a good request gives.
-/

namespace Sys2Proof.Machine

/-! ### The tuning number (R63, D8) -/

/-- An exact quotient is its integer part and a fraction, and comparing the fraction with a half is comparing twice the
remainder with the divisor. -/
theorem div_eq_floor_add_fraction (n : Nat) {d : Nat} (hd : 0 < d) :
    ∃ x : Rat, (n : Rat) / d = (n / d : Nat) + x ∧ 0 ≤ x ∧ x < 1 ∧
      (2 * (n % d) < d ↔ x < 1 / 2) ∧ (d < 2 * (n % d) ↔ 1 / 2 < x) := by
  have hd' : (0 : Rat) < d := Nat.cast_pos.2 hd
  refine ⟨(n % d : Nat) / d, ?_, by positivity, ?_, ?_, ?_⟩
  · rw [div_eq_iff hd'.ne', add_mul, div_mul_cancel₀ _ hd'.ne']
    exact_mod_cast (Nat.div_add_mod' n d).symm
  · rw [div_lt_one hd']
    exact_mod_cast Nat.mod_lt n hd
  · rw [div_lt_div_iff₀ hd' two_pos, one_mul, mul_comm]
    exact_mod_cast Iff.rfl
  · rw [div_lt_div_iff₀ two_pos hd', one_mul, mul_comm]
    exact_mod_cast Iff.rfl

/-- Rounding half to even: within half a step of the exact quotient, and even at an exact half. -/
theorem roundHalfEven_nearest (n : Nat) {d : Nat} (hd : 0 < d) :
    |(roundHalfEven n d : Rat) - n / d| ≤ 1 / 2 ∧
      (|(roundHalfEven n d : Rat) - n / d| = 1 / 2 → roundHalfEven n d % 2 = 0) := by
  obtain ⟨x, hn, hx0, hx1, hlt, hgt⟩ := div_eq_floor_add_fraction n hd
  have hdown : |((n / d : Nat) : Rat) - n / d| = x := by
    rw [hn, sub_add_cancel_left, abs_neg, abs_of_nonneg hx0]
  have hup : |((n / d + 1 : Nat) : Rat) - n / d| = 1 - x := by
    rw [hn, Nat.cast_add_one, add_sub_add_left_eq_sub, abs_of_pos (sub_pos.2 hx1)]
  unfold roundHalfEven
  simp only [hlt, hgt]
  split_ifs with hlow hhigh heven
  · rw [hdown]
    exact ⟨hlow.le, fun h => absurd h hlow.ne⟩
  · rw [hup]
    exact ⟨by linarith, fun h => by linarith⟩
  · rw [hdown]
    exact ⟨not_lt.1 hhigh, fun _ => heven⟩
  · rw [hup]
    exact ⟨by linarith, fun _ => by omega⟩

/-- A rational that is not negative is the quotient of two natural numbers. -/
theorem eq_num_toNat_div_den {q : Rat} (h : 0 ≤ q) : q = (q.num.toNat : Rat) / q.den := by
  have hnum : ((q.num.toNat : Int) : Rat) = q.num := by rw [Int.toNat_of_nonneg (Rat.num_nonneg.2 h)]
  rw [← Int.cast_natCast, hnum, Rat.num_div_den]

theorem tuningNumber_nearest {f rate : Rat} (hf : 0 ≤ f) (hrate : 0 < rate) :
    |(tuningNumber f rate : Rat) - f * 2 ^ 32 / rate| ≤ 1 / 2 ∧
      (|(tuningNumber f rate : Rat) - f * 2 ^ 32 / rate| = 1 / 2 → tuningNumber f rate % 2 = 0) := by
  have hquot : f * 2 ^ 32 / rate =
      ((f.num.toNat * 2 ^ 32 * rate.den : Nat) : Rat) / ((f.den * rate.num.toNat : Nat) : Rat) := by
    conv_lhs => rw [eq_num_toNat_div_den hf, eq_num_toNat_div_den hrate.le]
    rw [div_mul_eq_mul_div, div_div_div_eq]
    norm_num
  rw [hquot]
  exact roundHalfEven_nearest _ (Nat.mul_pos f.den_pos (by simpa using hrate))

/-- Settles O49: the rounding rule on the numerators and denominators of the two rationals. -/
theorem tuningNumberIsNearest : Obligations.TuningNumberIsNearest :=
  fun _ _ hf hrate => tuningNumber_nearest hf hrate

/-! ### The checks of the rates (R90, D9) -/

/-- A reference frequency that gives a tuning word at this rate: its exact quotient rounds to at most 2^32 - 1. -/
def GoodFrequency (rate : Rat) (x : RealInput) : Prop :=
  ∃ f : Rat, x = .finite f ∧ 0 ≤ f ∧ f * 2 ^ 32 / rate < 2 ^ 32 - 1 / 2

/-- At the boundary 2^32 - 1/2 the tie goes to 2^32, since 2^32 - 1 is odd. -/
theorem tuningNumber_le_iff {f rate : Rat} (hf : 0 ≤ f) (hrate : 0 < rate) :
    tuningNumber f rate ≤ 2 ^ 32 - 1 ↔ f * 2 ^ 32 / rate < 2 ^ 32 - 1 / 2 := by
  obtain ⟨hnear, htie⟩ := tuningNumber_nearest hf hrate
  generalize f * 2 ^ 32 / rate = x at hnear htie ⊢
  generalize tuningNumber f rate = n at hnear htie ⊢
  obtain ⟨hlow, hhigh⟩ := abs_le.1 hnear
  have hmax : ((2 ^ 32 - 1 : Nat) : Rat) = 2 ^ 32 - 1 := by norm_num
  constructor
  · intro hn
    by_contra! hx
    have hn' : (n : Rat) ≤ 2 ^ 32 - 1 := (Nat.cast_le.2 hn).trans_eq hmax
    have heven : n % 2 = 0 := htie (by rw [abs_of_nonpos] <;> linarith)
    have hodd : n = 2 ^ 32 - 1 := Nat.cast_injective (R := Rat) (by rw [hmax]; linarith)
    omega
  · intro hx
    have hn : (n : Rat) < 2 ^ 32 := by linarith
    exact Nat.le_sub_one_of_lt (by exact_mod_cast hn)

theorem tuningWord_of_good {rate f : Rat} (hrate : 0 < rate) (hf : 0 ≤ f)
    (hlt : f * 2 ^ 32 / rate < 2 ^ 32 - 1 / 2) :
    tuningWord rate (.finite f) = .ok (BitVec.ofNat 32 (tuningNumber f rate)) := by
  have hnum : ¬ f.num < 0 := not_lt.2 (Rat.num_nonneg.2 hf)
  rw [tuningWord, if_neg hnum, if_pos ((tuningNumber_le_iff hf hrate).2 hlt)]

theorem tuningWord_toNat {rate f : Rat} (hrate : 0 < rate) (hf : 0 ≤ f) (hlt : f * 2 ^ 32 / rate < 2 ^ 32 - 1 / 2)
    {w : Word} (h : tuningWord rate (.finite f) = .ok w) : w.toNat = tuningNumber f rate := by
  have hle := (tuningNumber_le_iff hf hrate).2 hlt
  rw [tuningWord_of_good hrate hf hlt, Except.ok.injEq] at h
  rw [← h, BitVec.toNat_ofNat]
  exact Nat.mod_eq_of_lt (by omega)

theorem tuningWord_of_bad {rate : Rat} {x : RealInput} (hrate : 0 < rate) (h : ¬ GoodFrequency rate x) :
    tuningWord rate x = .error .referenceFrequency := by
  cases x with
  | notFinite => rfl
  | finite f =>
    rw [tuningWord]
    split_ifs with hneg hle
    · rfl
    · have hf : 0 ≤ f := Rat.num_nonneg.1 (not_lt.1 hneg)
      exact absurd ⟨f, rfl, hf, (tuningNumber_le_iff hf hrate).1 hle⟩ h
    · rfl

/-- What CONFIGURE makes of one accumulator's request. -/
def Tuned (rate : Rat) (a : AccRequest) (ac : AccCfg) : Prop :=
  tuningWord rate a.referenceFrequency = .ok ac.ftw ∧ ac.phaseInit = BitVec.ofInt 32 a.phaseInit

theorem tuningWords_ok {rate : Rat} {as : List AccRequest} {l : List AccCfg} (h : tuningWords rate as = .ok l) :
    List.Forall₂ (Tuned rate) as l := by
  induction as generalizing l with
  | nil => cases h; exact .nil
  | cons a as ih =>
    rw [tuningWords] at h
    cases ha : tuningWord rate a.referenceFrequency with
    | error e => simp [ha] at h
    | ok w =>
      cases has : tuningWords rate as with
      | error e => simp [ha, has] at h
      | ok rest =>
        obtain rfl : ⟨w, BitVec.ofInt 32 a.phaseInit⟩ :: rest = l := by simpa [ha, has] using h
        exact .cons ⟨ha, rfl⟩ (ih has)

theorem tuningWords_of_good {rate : Rat} (hrate : 0 < rate) {as : List AccRequest}
    (h : ∀ a ∈ as, GoodFrequency rate a.referenceFrequency) : ∃ l, tuningWords rate as = .ok l := by
  induction as with
  | nil => exact ⟨[], rfl⟩
  | cons a as ih =>
    obtain ⟨⟨f, ha, hf, hlt⟩, has⟩ := List.forall_mem_cons.1 h
    obtain ⟨l, hl⟩ := ih has
    exact ⟨_, by rw [tuningWords, ha, tuningWord_of_good hrate hf hlt, hl]⟩

/-- Every refusal in the loop over the accumulators names the reference frequency. -/
theorem tuningWords_of_bad {rate : Rat} (hrate : 0 < rate) {as : List AccRequest}
    (h : ∃ a ∈ as, ¬ GoodFrequency rate a.referenceFrequency) : tuningWords rate as = .error .referenceFrequency := by
  induction as with
  | nil => simp at h
  | cons a as ih =>
    rw [tuningWords]
    by_cases ha : GoodFrequency rate a.referenceFrequency
    case neg => rw [tuningWord_of_bad hrate ha]
    case pos =>
      have has : ∃ b ∈ as, ¬ GoodFrequency rate b.referenceFrequency := by
        obtain ⟨b, hb, hbad⟩ := h
        exact ⟨b, List.mem_of_ne_of_mem (by rintro rfl; exact hbad ha) hb, hbad⟩
      obtain ⟨f, hfin, hf, hlt⟩ := ha
      rw [hfin, tuningWord_of_good hrate hf hlt, ih has]

/-! ### The checks of the rest (R7, R90) -/

/-- What makes a field of the rest of a request bad, by WF1 to WF5 (R7; log entry 6). -/
def BadField (r : StartupRequest) : ConfigField → Prop
  | .sampleRate | .referenceFrequency => False
  | .nacc => r.accs = []
  | .nch => r.chans = []
  | .nsub => r.nsub < 1 ∨ (1 ≤ r.nsub ∧ 1 ≤ r.stride ∧ 8 < r.nsub * r.stride)
  | .stride => r.stride < 1 ∨ (1 ≤ r.nsub ∧ 1 ≤ r.stride ∧ 8 < r.nsub * r.stride)
  | .phaseInit => ∃ a ∈ r.accs, a.phaseInit < 0 ∨ 2 ^ 32 ≤ a.phaseInit
  | .delta => ∃ ch ∈ r.chans, ch.delta < 0 ∨ 2 ^ 32 ≤ ch.delta
  | .src => ∃ ch ∈ r.chans, ch.src < 0 ∨ (r.accs.length : Int) ≤ ch.src
  | .pos => (∃ ch ∈ r.chans, ch.pos < 0 ∨ r.stride ≤ ch.pos) ∨ ¬ (r.chans.map ChanRequest.pos).Nodup

theorem mem_badIf {b : Bool} {f g : ConfigField} : f ∈ badIf b g ↔ b = true ∧ f = g := by
  cases b <;> simp [badIf]

theorem inWordRange_eq_false {v : Int} : inWordRange v = false ↔ v < 0 ∨ 2 ^ 32 ≤ v := by
  rw [← Bool.not_eq_true, inWordRange, Bool.and_eq_true, decide_eq_true_iff, decide_eq_true_iff]
  omega

theorem mem_offenders {r : StartupRequest} {what : ConfigField} : what ∈ offenders r ↔ BadField r what := by
  cases what <;> simp [offenders, mem_badIf, BadField, inWordRange_eq_false]

theorem namedOffender_mem {l : List ConfigField} {f : ConfigField} (h : namedOffender l = some f) : f ∈ l := by
  match l, h with
  | [g], h => cases h; simp
  | g :: g' :: fs, h =>
    cases h
    rw [List.getD_eq_getElem _ _ (Nat.mod_lt _ (List.length_pos_of_ne_nil (List.cons_ne_nil _ _)))]
    exact List.getElem_mem _

theorem namedOffender_eq_none {l : List ConfigField} (h : namedOffender l = none) : l = [] := by
  match l, h with
  | [], _ => rfl
  | [_], h => cases h
  | _ :: _ :: _, h => cases h

theorem offenders_eq_nil {r : StartupRequest} : offenders r = [] ↔ ∀ what, ¬ BadField r what := by
  simp only [List.eq_nil_iff_forall_not_mem, mem_offenders]

/-! ### The four results of CONFIGURE (R90) -/

section
variable {r : StartupRequest} {rate : Rat}

theorem configured_of_bad_rate (h : r.sampleRate = .notFinite ∨ ∃ q : Rat, r.sampleRate = .finite q ∧ q ≤ 0) :
    configured r = .error .sampleRate := by
  obtain h | ⟨q, h, hq⟩ := h
  · rw [configured, h]
  · rw [configured, h]
    exact if_pos (Rat.num_nonpos.2 hq)

/-- Once the rate is good, the loop over the accumulators decides, and after it the checks of the rest. -/
theorem configured_of_good_rate (hr : r.sampleRate = .finite rate) (hrate : 0 < rate) :
    configured r =
      (tuningWords rate r.accs).bind fun accs =>
        match namedOffender (offenders r) with
        | some f => .error f
        | none => .ok (builtCfg accs r) := by
  have hnum : ¬ rate.num ≤ 0 := not_le.2 (Rat.num_pos.2 hrate)
  rw [configured, hr]
  simp only [hnum, if_false]
  cases tuningWords rate r.accs <;> rfl

theorem configured_of_bad_frequency (hr : r.sampleRate = .finite rate) (hrate : 0 < rate)
    (h : ∃ a ∈ r.accs, ¬ GoodFrequency rate a.referenceFrequency) : configured r = .error .referenceFrequency := by
  rw [configured_of_good_rate hr hrate, tuningWords_of_bad hrate h]
  rfl

theorem configured_of_bad_rest (hr : r.sampleRate = .finite rate) (hrate : 0 < rate)
    (hgood : ∀ a ∈ r.accs, GoodFrequency rate a.referenceFrequency) (hbad : ∃ what, BadField r what) :
    ∃ what, configured r = .error what ∧ BadField r what := by
  obtain ⟨l, hl⟩ := tuningWords_of_good hrate hgood
  cases hn : namedOffender (offenders r) with
  | none =>
    obtain ⟨what, h⟩ := hbad
    exact absurd h (offenders_eq_nil.1 (namedOffender_eq_none hn) what)
  | some what =>
    refine ⟨what, ?_, mem_offenders.1 (namedOffender_mem hn)⟩
    rw [configured_of_good_rate hr hrate, hl, hn]
    rfl

theorem configured_of_good (hr : r.sampleRate = .finite rate) (hrate : 0 < rate)
    (hgood : ∀ a ∈ r.accs, GoodFrequency rate a.referenceFrequency) (hrest : ∀ what, ¬ BadField r what) :
    ∃ accs, List.Forall₂ (Tuned rate) r.accs accs ∧ configured r = .ok (builtCfg accs r) := by
  obtain ⟨l, hl⟩ := tuningWords_of_good hrate hgood
  refine ⟨l, tuningWords_ok hl, ?_⟩
  rw [configured_of_good_rate hr hrate, hl, offenders_eq_nil.2 hrest]
  rfl

/-- An accepted request has good rates and a rest without a bad field. -/
theorem configured_ok {c : Cfg} (h : configured r = .ok c) :
    ∃ rate accs, List.Forall₂ (Tuned rate) r.accs accs ∧ (∀ what, ¬ BadField r what) ∧ c = builtCfg accs r := by
  cases hr : r.sampleRate with
  | notFinite =>
    rw [configured_of_bad_rate (.inl hr)] at h
    cases h
  | finite rate =>
    obtain hrate | hrate := le_or_gt rate 0
    · rw [configured_of_bad_rate (.inr ⟨rate, hr, hrate⟩)] at h
      cases h
    · rw [configured_of_good_rate hr hrate] at h
      cases hl : tuningWords rate r.accs with
      | error e => rw [hl] at h; cases h
      | ok accs =>
        cases hn : namedOffender (offenders r) with
        | some f => rw [hl, hn] at h; cases h
        | none =>
          rw [hl, hn] at h
          cases h
          exact ⟨rate, accs, tuningWords_ok hl, offenders_eq_nil.1 (namedOffender_eq_none hn), rfl⟩

end

/-- Without a bad field the configuration that is built is well-formed. -/
theorem builtCfg_wellFormed {r : StartupRequest} {accs : List AccCfg} (hlen : accs.length = r.accs.length)
    (h : ∀ what, ¬ BadField r what) : (builtCfg accs r).wellFormed = true := by
  have hnacc := h .nacc
  have hnch := h .nch
  have hnsub := h .nsub
  have hstride := h .stride
  have hsrc := h .src
  have hpos := h .pos
  simp only [BadField] at hnacc hnch hnsub hstride hsrc hpos
  push Not at hnsub hstride hsrc hpos
  obtain ⟨hpos, hnodup⟩ := hpos
  rw [wellFormed_iff]
  have hchan : ∀ ch ∈ r.chans, (ch.src.toNat < accs.length ∧ ch.pos.toNat < r.stride.toNat) := fun ch hch => by
    have h1 := hsrc ch hch
    have h2 := hpos ch hch
    omega
  have hn : 1 ≤ r.nsub.toNat ∧ 1 ≤ r.stride.toNat := by omega
  refine ⟨⟨?_, ?_, hn⟩, ?_, ⟨?_, ?_⟩, ?_⟩
  · simpa [builtCfg, Cfg.nacc, hlen, Nat.one_le_iff_ne_zero] using hnacc
  · simpa [builtCfg, Cfg.nch, Nat.one_le_iff_ne_zero] using hnch
  · simpa [builtCfg, Cfg.nacc] using fun ch hch => (hchan ch hch).1
  · simpa [builtCfg] using fun ch hch => (hchan ch hch).2
  · have hinj : ∀ x ∈ r.chans.map ChanRequest.pos, ∀ y ∈ r.chans.map ChanRequest.pos, x.toNat = y.toNat → x = y := by
      simp only [List.forall_mem_map]
      intro ch hch ch' hch' heq
      have h1 := hpos ch hch
      have h2 := hpos ch' hch'
      omega
    simpa [builtCfg, Function.comp_def] using hnodup.map_on hinj
  · have hprod : ((r.nsub.toNat * r.stride.toNat : Nat) : Int) = r.nsub * r.stride := by
      rw [Nat.cast_mul, Int.toNat_of_nonneg (by omega), Int.toNat_of_nonneg (by omega)]
    change r.nsub.toNat * r.stride.toNat ≤ 8
    omega

theorem configured_wellFormed {r : StartupRequest} {c : Cfg} (h : configured r = .ok c) : c.wellFormed = true := by
  obtain ⟨rate, accs, hl, hrest, rfl⟩ := configured_ok h
  exact builtCfg_wellFormed hl.length_eq.symm hrest

/-! ### CONFIGURE as an operation (R90, R151, R185) -/

theorem exec_configure_running {s : State} (hb : s.boot = .running) (req : StartupRequest) :
    exec (.configure req) s = .refused .reconfiguredWhileRunning := by
  change execConfigure req s = _
  rw [execConfigure, hb]

/-- Off a running block the operation is CONFIGURE's result (R183). -/
theorem exec_configure_not_running {s : State} (hb : s.boot ≠ .running) (req : StartupRequest) :
    exec (.configure req) s =
      match configured req with
      | .error what => .next { s with boot := .refused what }
      | .ok c => .next { s with cfg := c, boot := .configured } := by
  change execConfigure req s = _
  rw [execConfigure]
  cases h : s.boot
  case running => exact absurd h hb
  all_goals cases configured req <;> rfl

theorem exec_configure_error {s : State} (hb : s.boot ≠ .running) {req : StartupRequest} {what : ConfigField}
    (h : configured req = .error what) : exec (.configure req) s = .next { s with boot := .refused what } := by
  rw [exec_configure_not_running hb, h]

theorem exec_configure_ok {s : State} (hb : s.boot ≠ .running) {req : StartupRequest} {c : Cfg}
    (h : configured req = .ok c) : exec (.configure req) s = .next { s with cfg := c, boot := .configured } := by
  rw [exec_configure_not_running hb, h]

/-- Settles O53: the guard of R185 comes before every check. -/
theorem configureRefusedWhileRunning : Obligations.ConfigureRefusedWhileRunning :=
  fun _ req hb => exec_configure_running hb req

/-- Settles O51: the rate is checked first, and every refusal in the loop names the frequency. -/
theorem configureRefusesBadRates : Obligations.ConfigureRefusesBadRates := by
  intro s req hb
  refine ⟨fun h => exec_configure_error hb (configured_of_bad_rate h), fun rate hr hrate ⟨a, ha, hbad⟩ => ?_⟩
  refine exec_configure_error hb (configured_of_bad_frequency hr hrate ⟨a, ha, ?_⟩)
  rintro ⟨f, hf, hnonneg, hlt⟩
  obtain hnot | ⟨f', hf', hneg | hge⟩ := hbad
  · simp [hnot] at hf
  · obtain rfl : f = f' := by simpa [hf] using hf'
    exact absurd hneg (not_lt.2 hnonneg)
  · obtain rfl : f = f' := by simpa [hf] using hf'
    exact absurd hlt (not_lt.2 hge)

/-- Settles O52: the named field is a bad one, and each way to break WF1 to WF5 makes some field bad. -/
theorem configureRefusesIllFormedRest : Obligations.ConfigureRefusesIllFormedRest := by
  intro s req rate hb hr hrate hgood hrest
  have hbad : ∃ what, BadField req what := by
    obtain h | h | h | h | h | ⟨ch, hch, h⟩ | h | h := hrest
    · exact ⟨.nacc, h⟩
    · exact ⟨.nch, h⟩
    · exact ⟨.nsub, .inl h⟩
    · exact ⟨.stride, .inl h⟩
    · exact ⟨.phaseInit, h⟩
    · obtain h | h | h | h | h | h := h
      · exact ⟨.delta, ch, hch, .inl h⟩
      · exact ⟨.delta, ch, hch, .inr h⟩
      · exact ⟨.src, ch, hch, .inl h⟩
      · exact ⟨.src, ch, hch, .inr h⟩
      · exact ⟨.pos, .inl ⟨ch, hch, .inl h⟩⟩
      · exact ⟨.pos, .inl ⟨ch, hch, .inr h⟩⟩
    · exact ⟨.pos, .inr h⟩
    · obtain hn | hn := Int.lt_or_le req.nsub 1
      · exact ⟨.nsub, .inl hn⟩
      · obtain hs | hs := Int.lt_or_le req.stride 1
        · exact ⟨.stride, .inl hs⟩
        · exact ⟨.nsub, .inr ⟨hn, hs, h⟩⟩
  obtain ⟨what, hc, hwhat⟩ := configured_of_bad_rest hr hrate hgood hbad
  refine ⟨what, exec_configure_error hb hc, ?_⟩
  cases what with
  | sampleRate | referenceFrequency => exact hwhat.elim
  | nacc => exact .inl ⟨rfl, hwhat⟩
  | nch => exact .inr (.inl ⟨rfl, hwhat⟩)
  | nsub => exact .inr (.inr (.inl ⟨rfl, hwhat.imp_right fun ⟨_, _, h⟩ => h⟩))
  | stride => exact .inr (.inr (.inr (.inl ⟨rfl, hwhat.imp_right fun ⟨_, _, h⟩ => h⟩)))
  | phaseInit => exact .inr (.inr (.inr (.inr (.inl ⟨rfl, hwhat⟩))))
  | delta => exact .inr (.inr (.inr (.inr (.inr (.inl ⟨rfl, hwhat⟩)))))
  | src => exact .inr (.inr (.inr (.inr (.inr (.inr (.inl ⟨rfl, hwhat⟩))))))
  | pos => exact .inr (.inr (.inr (.inr (.inr (.inr (.inr ⟨rfl, hwhat⟩))))))

theorem ofInt_toNat {v : Int} (h0 : 0 ≤ v) (h1 : v < 2 ^ 32) : ((BitVec.ofInt 32 v).toNat : Int) = v := by
  rw [BitVec.toNat_ofInt]
  omega

/-- What CONFIGURE makes of a good accumulator request, read back. -/
theorem Tuned.readback {rate f : Rat} {a : AccRequest} {ac : AccCfg} (h : Tuned rate a ac) (hrate : 0 < rate)
    (hf : a.referenceFrequency = .finite f) (hgood : GoodFrequency rate a.referenceFrequency)
    (h0 : 0 ≤ a.phaseInit) (h1 : a.phaseInit < 2 ^ 32) :
    |(ac.ftw.toNat : Rat) - f * 2 ^ 32 / rate| ≤ 1 / 2 ∧ (ac.phaseInit.toNat : Int) = a.phaseInit := by
  obtain ⟨hword, hinit⟩ := h
  obtain ⟨f', hf', hnonneg, hlt⟩ := hgood
  obtain rfl : f = f' := by simpa [hf] using hf'
  rw [hf] at hword
  obtain ⟨hnear, -⟩ := tuningNumber_nearest hnonneg hrate
  exact ⟨by rwa [tuningWord_toNat hrate hnonneg hlt hword], by rw [hinit, ofInt_toNat h0 h1]⟩

/-- Settles O50: a good request has no bad field, and what is built is read back field by field. -/
theorem configureBuildsTheConfiguration : Obligations.ConfigureBuildsTheConfiguration := by
  intro s req rate hb hr hrate haccs hchans hnodup hnacc hnch hnsub hstride hprod
  have hrest : ∀ what, ¬ BadField req what := by
    rintro (_ | _ | _ | _ | _ | _ | _ | _ | _ | _)
    · exact id
    · exact id
    · exact hnacc
    · exact hnch
    · rintro (h | ⟨-, -, h⟩) <;> omega
    · rintro (h | ⟨-, -, h⟩) <;> omega
    · rintro ⟨a, ha, h⟩
      have := haccs a ha
      omega
    · rintro ⟨ch, hch, h⟩
      have := hchans ch hch
      omega
    · rintro ⟨ch, hch, h⟩
      have := hchans ch hch
      omega
    · rintro (⟨ch, hch, h⟩ | h)
      · have := hchans ch hch
        omega
      · exact h hnodup
  have hgood : ∀ a ∈ req.accs, GoodFrequency rate a.referenceFrequency := fun a ha => (haccs a ha).2.2
  obtain ⟨accs, htuned, hc⟩ := configured_of_good hr hrate hgood hrest
  refine ⟨builtCfg accs req, exec_configure_ok hb hc, configured_wellFormed hc, Int.toNat_of_nonneg (by omega),
    Int.toNat_of_nonneg (by omega), htuned.length_eq.symm, List.length_map _, ?_, ?_⟩
  · intro i a f ha hf
    obtain ⟨hi, rfl⟩ := List.getElem?_eq_some_iff.1 ha
    have hi' : i < accs.length := htuned.length_eq ▸ hi
    obtain ⟨h0, h1, hfreq⟩ := haccs _ (List.getElem_mem hi)
    have htuned' : Tuned rate req.accs[i] accs[i] := htuned.get hi hi'
    exact ⟨accs[i], List.getElem?_eq_getElem hi', htuned'.readback hrate hf hfreq h0 h1⟩
  · intro j ch hch
    obtain ⟨hd0, hd1, hs0, -, hp0, -⟩ := hchans ch (List.mem_of_getElem? hch)
    exact ⟨⟨ch.src.toNat, BitVec.ofInt 32 ch.delta, ch.pos.toNat⟩, by simp [builtCfg, hch],
      Int.toNat_of_nonneg hs0, ofInt_toNat hd0 hd1, Int.toNat_of_nonneg hp0⟩

end Sys2Proof.Machine

/-!
PROOFS. Step selection (42_step_ops.md R130) and single steps: what a step of the machine does at an edge, what it
keeps, and runs in which one step follows the other in a fixed order.
-/

namespace Sys2Proof.Machine

/-! ### Step selection (R130) -/

/-- Settles O5: the select word read back in the order of R130. -/
theorem stepSelectionOrder : Obligations.StepSelectionOrder := by
  intro s p he
  rw [nextInstr_of_edge he]
  refine ⟨fun h => by simp [h], fun hrst hheld => ⟨fun hhalt => ?_, fun hhalt hv => ?_, fun hhalt hv herr => ?_,
    fun hhalt hv herr hready => ?_, fun hhalt hv herr hready => ?_⟩⟩
  · simp [hrst, hheld, hhalt]
  · simp [hrst, hheld, hhalt, hv]
  · simp [hrst, hheld, hhalt, hv, sinkAnswer, herr]
  · simp [hrst, hheld, hhalt, hv, sinkAnswer, herr, hready]
  · simp [hrst, hheld, hhalt, hv, sinkAnswer, herr, hready]

/-- Settles O6: the event is read off the schedule, the select word off the flags and the start-up condition. -/
theorem nextStepIgnoresData : Obligations.NextStepIgnoresData := by
  intro s t hhalt houtv hboot hinputs hnow
  have hevent : s.nextEvent = t.nextEvent := by rw [State.nextEvent, State.nextEvent, hinputs, hnow]
  have hselect : selectWord s = selectWord t := by
    funext p
    rw [selectWord, selectWord, hhalt, houtv, hboot]
  rw [State.nextInstr, State.nextInstr, hevent, hselect]

theorem nextBoot_configure {s : State} {r : StartupRequest} (h : s.nextEvent = .configure r) : s.nextBoot = s.boot := by
  rw [State.nextBoot, h]

theorem advance_configure {s : State} {r : StartupRequest} (h : s.nextEvent = .configure r) :
    s.advance = { s with inputs := s.inputs.tail, now := s.now + 1 } := by
  rw [State.advance, nextBoot_configure h]

/-- Settles O4: at an edge and at a CONFIGURE the operation and the state with the event taken are read off. -/
theorem stepRunsTheDecodedOperation : Obligations.StepRunsTheDecodedOperation := by
  refine ⟨fun s p i he hi => ?_, fun s r he => ?_⟩
  · rw [step_eq, nextInstr_edge he, hi, State.advance, State.nextBoot, he]
    rfl
  · rw [step_eq, nextInstr_configure he, advance_configure he]

/-- Settles O32: HALT selects HOLD, which leaves the state with the event taken. -/
theorem haltHoldsUntilReset : Obligations.HaltHoldsUntilReset := by
  intro s p hhalt he hrst hheld
  have hi : s.nextInstr = .hold := by simp [nextInstr_of_edge he, hrst, hheld, hhalt]
  have hboot : s.nextBoot = .running := nextBoot_of_edge he (by simp [State.resetAsserted, hrst, hheld])
  rw [step_eq, hi, exec_hold, State.advance, hboot]

/-- Settles O35: the edge selects TICK whatever the sink's pins say, and they are not kept. -/
theorem sinkIgnoredDuringTick : Obligations.SinkIgnoredDuringTick := by
  intro s e r e' r' rest houtv hhalt hheld
  have htick : ∀ e r, { s with inputs := .edge ⟨false, e, r⟩ :: rest }.nextInstr = .tick := fun e r => by
    rw [nextInstr_of_edge (nextEvent_cons rfl)]
    simp [houtv, hhalt, hheld]
  rw [step_eq, step_eq, htick, htick]
  rfl

/-! ### The configuration (R51, R91) -/

theorem step_cfg {s t : State} (h : step s = .next t) (hc : ∀ req, s.nextInstr ≠ .configure req) : t.cfg = s.cfg := by
  obtain ⟨-, rfl⟩ | ⟨req, hi, -⟩ | ⟨-, ⟨-, rfl⟩ | ⟨-, rfl⟩ | ⟨-, rfl⟩ | ⟨-, rfl⟩⟩ := step_cases h
  · rfl
  · exact absurd hi (hc req)
  · exact ticked_cfg s.advance
  · rfl
  · rfl
  · rfl

/-- A step of the machine that configures does so at the host's event, and not on a running block (R185). -/
theorem step_configure {s t : State} {req : StartupRequest} (hi : s.nextInstr = .configure req)
    (h : step s = .next t) :
    s.nextBoot ≠ .running ∧
      ((∃ what, configured req = .error what ∧ t = { s.advance with boot := .refused what }) ∨
       (∃ c, configured req = .ok c ∧ t = { s.advance with cfg := c, boot := .configured })) := by
  rw [step_eq, hi] at h
  exact exec_configure_next h

theorem nextEvent_of_nextInstr_configure {s : State} {req : StartupRequest} (h : s.nextInstr = .configure req) :
    s.nextEvent = .configure req := by
  cases he : s.nextEvent with
  | configure r => rw [nextInstr_configure he] at h; cases h; rfl
  | edge p =>
    rw [nextInstr_edge he] at h
    obtain hd | hd | hd | hd | hd | hd := decodeSelect_cases (selectWord s p) <;> rw [hd] at h <;> cases h

theorem Performs.cfg_eq {is : List Instr} {s t : State} (h : Performs is s t) (hc : ∀ i ∈ is, ∀ r, i ≠ .configure r) :
    t.cfg = s.cfg := by
  induction h with
  | nil => rfl
  | cons hi hs _ ih =>
    obtain ⟨hhead, htail⟩ := List.forall_mem_cons.1 hc
    subst hi
    exact (ih htail).trans (step_cfg hs hhead)

/-- Settles O47: CONFIGURE alone changes the configuration, and it has no next state on a running block. -/
theorem runningConfigurationIsConstant : Obligations.RunningConfigurationIsConstant := by
  refine ⟨fun s t hb h => step_cfg h fun req hi => ?_, fun k s t h hc => (performs_trace h).cfg_eq hc⟩
  obtain ⟨hnot, -⟩ := step_configure hi h
  exact hnot ((nextBoot_configure (nextEvent_of_nextInstr_configure hi)).trans hb)

/-! ### The offered byte (R27, R188) -/

/-- Settles O33: with a byte offered a step is EMIT, or CONFIGURE, or leaves the registers alone. -/
theorem offeredByteIsKept : Obligations.OfferedByteIsKept := by
  intro s t hv h hr
  by_cases hc : ∃ req, s.nextInstr = .configure req
  case pos =>
    obtain ⟨req, hi⟩ := hc
    obtain ⟨-, ⟨what, -, rfl⟩ | ⟨c, -, rfl⟩⟩ := step_configure hi h <;> simp [hi, hv]
  case neg =>
    obtain ⟨-, -, hv', -⟩ | ⟨hi, -, rfl⟩ | ⟨ht, -, b, rfl⟩ := running_step_cases h hr fun req hi => hc ⟨req, hi⟩
    · simp [hv] at hv'
    · simp [hi]
    · exact ⟨ht, rfl, rfl, rfl, rfl, .inl hv⟩

/-- Settles O36: EMIT leaves the state with OUTV cleared and another STREAM, which TICK carries along. -/
theorem emitThenTickIsTickThenAppend : Obligations.EmitThenTickIsTickThenAppend := by
  intro s t h
  have hemit : exec .emit s = .next ({ s with outv := false }.withStream (s.stream ++ [s.out])) := exec_emit s
  simp only [runInstrs, hemit, andThen_next]
  rw [exec_withStream (by simp), h]
  rfl

/-! ### A busy sink (R49, R134) -/

theorem advance_running {s : State} {p : Pins} (hb : s.boot = .running) (he : s.nextEvent = .edge p)
    (hrst : p.rst = false) : s.advance = { s with inputs := s.inputs.tail, now := s.now + 1 } := by
  have hboot : s.nextBoot = s.boot :=
    (nextBoot_of_edge he (by simp [State.resetAsserted, hrst, hb, heldInReset])).trans hb.symm
  rw [State.advance, hboot]

/-- Settles O34: each edge is a STALL, which only uses up the event. -/
theorem busySinkMakesNoProgress : Obligations.BusySinkMakesNoProgress := by
  intro n
  induction n with
  | zero =>
    intro s rest _ _ _ hin
    obtain rfl : s.inputs = rest := hin
    rfl
  | succ n ih =>
    intro s rest hb hhalt hv hin
    have he : s.nextEvent = .edge ⟨false, false, false⟩ := nextEvent_cons hin
    have hi : s.nextInstr = .stall := by simp [nextInstr_of_edge he, hb, heldInReset, hhalt, hv, sinkAnswer]
    rw [runSteps, step_eq, hi, exec_stall, andThen_next, advance_running hb he rfl, hin]
    refine (ih { s with inputs := _, now := s.now + 1 } rest hb hhalt hv rfl).trans ?_
    simp only [Nat.add_assoc, Nat.add_comm 1]

/-! ### A refused block (R151) -/

/-- An edge of a refused block is RESET, which leaves it refused. -/
theorem refused_step {s : State} {what : ConfigField} {p : Pins} (hb : s.boot = .refused what)
    (he : s.nextEvent = .edge p) :
    s.nextInstr = .reset ∧ step s = .next s.advance.resetAll ∧ s.advance.resetAll.boot = .refused what := by
  have hheld : heldInReset s.boot = true := by rw [hb]; rfl
  have hi : s.nextInstr = .reset := by simp [nextInstr_of_edge he, hheld]
  have hboot : s.nextBoot = .refused what := by
    simpa [State.nextBoot, he, State.resetAsserted, hheld] using hb
  refine ⟨hi, by rw [step_eq, hi, exec_reset], ?_⟩
  rw [resetAll_boot, advance_boot, hboot]
  rfl

/-- Settles O54: by induction on the number of edges, the block stays refused. -/
theorem refusedBlockNeverLeavesReset : Obligations.RefusedBlockNeverLeavesReset := by
  intro k
  induction k with
  | zero => exact fun s what hb _ _ => ⟨rfl, s, rfl, hb, rfl⟩
  | succ k ih =>
    intro s what hb hk hedges
    cases hin : s.inputs with
    | nil => simp [hin] at hk
    | cons e es =>
      rw [hin] at hk hedges
      obtain ⟨⟨p, rfl⟩, hes⟩ := List.forall_mem_cons.1 hedges
      obtain ⟨hi, hstep, hb'⟩ := refused_step hb (nextEvent_cons hin)
      have hes' : s.advance.resetAll.inputs = es := by simp [hin]
      obtain ⟨htrace, t, hrun, ht, hstream⟩ :=
        ih s.advance.resetAll what hb' (by rw [hes']; exact Nat.le_of_succ_le_succ hk) (by rwa [hes'])
      refine ⟨?_, t, ?_, ht, hstream⟩
      · simp only [trace, hi, hstep, htrace, List.replicate_succ]
      · rw [runSteps, hstep, andThen_next, hrun]

/-! ### A closed sink (R135, R189) -/

/-- A block that has halted, out of reset, whose environment is scheduled to do es. -/
def HaltedWith (es : List EnvEvent) (s : State) : Prop :=
  heldInReset s.boot = false ∧ s.halt = true ∧ s.inputs = es

section
variable {c : Cfg} {e r : Bool} {n m : Nat} {es : List EnvEvent}

theorem leads_fail :
    Leads (InLoop c true n m (.edge ⟨false, true, r⟩ :: es)) [.fail] (HaltedWith es) := fun _ h =>
  ⟨_, .cons h.nextInstr_eq (exec_fail _) (.nil _), h.advance.released, rfl, h.advance.inputs_eq⟩

theorem leads_hold : Leads (HaltedWith (.edge ⟨false, e, r⟩ :: es)) [.hold] (HaltedWith es) := by
  rintro s ⟨hheld, hhalt, hin⟩
  have he : s.nextEvent = .edge ⟨false, e, r⟩ := nextEvent_cons hin
  have hi : s.nextInstr = .hold := by simp [nextInstr_of_edge he, hheld, hhalt]
  have hboot : s.nextBoot = .running := nextBoot_of_edge he (by simp [State.resetAsserted, hheld])
  exact ⟨s.advance, .cons hi (exec_hold _) (.nil _), by rw [advance_boot, hboot]; rfl, hhalt, by simp [hin]⟩

theorem leads_holds (w : Nat) :
    Leads (HaltedWith (List.replicate w (.edge ⟨false, e, r⟩) ++ es)) (List.replicate w .hold) (HaltedWith es) := by
  induction w with
  | zero => exact .refl _
  | succ w ih => exact leads_hold.append ih

/-- A closed sink at the emit attempt, and w more edges of it. -/
theorem leads_closed (w : Nat) :
    Leads (InLoop c true n m (List.replicate (1 + w) (.edge ⟨false, true, r⟩) ++ es))
      ([.fail] ++ List.replicate w .hold) (HaltedWith es) := by
  rw [Nat.add_comm 1, List.replicate_succ]
  exact leads_fail.append (leads_holds w)

end

/-- Steps without EMIT leave STREAM as it is (R41). -/
theorem Performs.stream_eq {is : List Instr} {s t : State} (h : Performs is s t) (he : .emit ∉ is) :
    t.stream = s.stream := by
  induction h with
  | nil => rfl
  | cons hi hs _ ih =>
    have hhead := List.ne_of_not_mem_cons he
    have htail := List.not_mem_of_not_mem_cons he
    exact (ih htail).trans ((exec_stream_of_ne_emit hhead.symm hs).trans (advance_stream _))

/-- Settles O42: the ticks left in the period, if no byte is offered yet, then FAIL, then HOLD. -/
theorem closedSinkIsNoticedAtTheNextEmit : Obligations.ClosedSinkIsNoticedAtTheNextEmit := by
  intro s r n rest hinv hheld hhalt ticks hin
  have hstart : InLoop s.cfg s.outv s.sub s.stream.length s.inputs s :=
    ⟨rfl, Inv_coherent hinv hheld, hheld, hhalt, rfl, rfl, rfl, rfl⟩
  rw [hin, Nat.add_assoc, List.replicate_add, List.append_assoc] at hstart
  have hrun : ∃ t, Performs (List.replicate ticks .tick ++ [.fail] ++ List.replicate n .hold) s t ∧
      HaltedWith rest t := by
    rw [List.append_assoc]
    have hsub := Inv_sub_lt hinv hheld
    cases hv : s.outv with
    | true =>
      have hticks : ticks = 0 := by simp [ticks, hv]
      rw [hv, hticks] at hstart
      rw [hticks]
      exact leads_closed n s hstart
    | false =>
      obtain ⟨k, hk⟩ : ∃ k, ticks = k + 1 := ⟨s.cfg.nsub - s.sub - 1, by simp [ticks, hv]; omega⟩
      have hsum : s.sub + (k + 1) = s.cfg.nsub := by simp [ticks, hv] at hk; omega
      rw [hv, hk] at hstart
      rw [hk]
      exact ((leads_ticks hsum).append (leads_closed n)) s hstart
  obtain ⟨t, hperforms, -, hhalted, -⟩ := hrun
  obtain ⟨htrace, hsteps⟩ := hperforms.trace_and_runSteps
  have hlen : (List.replicate ticks Instr.tick ++ [Instr.fail] ++ List.replicate n Instr.hold).length =
      ticks + 1 + n := by
    simp [Nat.add_assoc, Nat.add_comm 1]
  rw [hlen] at htrace hsteps
  exact ⟨htrace, t, hsteps, hhalted, hperforms.stream_eq (by simp)⟩

end Sys2Proof.Machine

/-!
PROOFS. The invariant of every reachable state (00_scope.md R7, 10_state.md R20, R24, R26): it holds at reset, every
step keeps it, and no step from it stops but a refused reconfiguration.
-/

namespace Sys2Proof.Machine

/-- Registers at the start of a period are in shape: after RESET, and after the last tick of a period. -/
theorem inShape_of_period_start {s : State} (hw : s.cfg.wellFormed = true) (hphase : s.phase.length = s.cfg.nacc)
    (hwork : s.work = Work.clear s.cfg.nch) (hsub : s.sub = 0) (hsample : s.sample = 0) : s.inShape := by
  obtain ⟨⟨-, -, hnsub, -⟩, -⟩ := (wellFormed_iff _).1 hw
  refine ⟨hphase, hwork, by omega, fun _ => hsample, ?_⟩
  rw [hsample]
  exact Nat.two_pow_pos _

theorem resetAll_inShape {s : State} (hw : s.cfg.wellFormed = true) : s.resetAll.inShape :=
  inShape_of_period_start hw (by simp [Cfg.nacc]) rfl rfl rfl

theorem resetOf_Inv {c : Cfg} (hw : c.wellFormed = true) (inputs : List EnvEvent) : (State.resetOf c inputs).Inv :=
  ⟨hw, fun _ => inShape_of_period_start hw (by simp [State.resetOf, Cfg.nacc]) rfl rfl rfl⟩

/-- Settles O44: the values of R34 are in shape, and the model's own configuration is well-formed. -/
theorem resetMeetsInvariant : Obligations.ResetMeetsInvariant :=
  ⟨resetOf_Inv (cfgA_wellFormed _) [], fun _ inputs hw => resetOf_Inv hw inputs⟩

/-- Shifting in a group below 2^stride raises the bound on the sample by a factor of 2^stride. -/
theorem shiftLeft_or_lt {x g stride n : Nat} (hx : x < 2 ^ (stride * n)) (hg : g < 2 ^ stride) :
    (x <<< stride) ||| g < 2 ^ (stride * (n + 1)) := by
  have hshift : x <<< stride < 2 ^ (stride * (n + 1)) := by
    rw [Nat.shiftLeft_eq, Nat.mul_succ, Nat.pow_add]
    exact Nat.mul_lt_mul_of_pos_right hx (Nat.two_pow_pos _)
  have hgroup : g < 2 ^ (stride * (n + 1)) :=
    hg.trans_le (Nat.pow_le_pow_right two_pos (Nat.le_mul_of_pos_right _ n.succ_pos))
  exact Nat.or_lt_two_pow hshift hgroup

theorem ticked_inShape {s : State} (hw : s.cfg.wellFormed = true) (h : s.inShape) : s.ticked.inShape := by
  obtain ⟨hphase, -, hsub, -, hsample⟩ := h
  have hlen : s.ticked.phase.length = s.ticked.cfg.nacc := by
    rw [ticked_phase, ticked_cfg, nextPhase_length hphase, hphase]
  have hwork : s.ticked.work = Work.clear s.ticked.cfg.nch := by simp [State.ticked]
  by_cases hlast : s.sub = s.cfg.nsub - 1
  · obtain ⟨-, -, hzero, hstart⟩ := ticked_last hw hlast
    exact inShape_of_period_start (by simpa using hw) hlen hwork hstart hzero
  · obtain ⟨-, -, hpacked, hcount⟩ := ticked_not_last hw hlast
    refine ⟨hlen, hwork, by rw [hcount, ticked_cfg]; omega, by simp [hcount], ?_⟩
    rw [hpacked, hcount, ticked_cfg]
    exact (Nat.mod_le _ _).trans_lt (shiftLeft_or_lt hsample (groupNumber_lt hw _))

/-- Settles O43: RESET puts the registers in shape, TICK keeps their shape, CONFIGURE leaves the block held in reset
with a well-formed configuration, and no other step touches them. -/
theorem stepKeepsInvariant : Obligations.StepKeepsInvariant := by
  rintro s t ⟨hw, hshape⟩ h
  obtain ⟨-, rfl⟩ | ⟨req, hi, -⟩ | ⟨hb, hop⟩ := step_cases h
  · exact ⟨hw, fun _ => resetAll_inShape (s := s.advance) hw⟩
  · obtain ⟨-, ⟨what, -, rfl⟩ | ⟨c, hc, rfl⟩⟩ := step_configure hi h
    · exact ⟨hw, nofun⟩
    · exact ⟨configured_wellFormed hc, nofun⟩
  · have hs : s.inShape := hshape hb
    obtain ⟨-, rfl⟩ | ⟨-, rfl⟩ | ⟨-, rfl⟩ | ⟨-, rfl⟩ := hop
    · exact ⟨(ticked_cfg s.advance).symm ▸ hw, fun _ => ticked_inShape (s := s.advance) hw hs⟩
    all_goals exact ⟨hw, fun _ => hs⟩

/-- Settles O45: TICK is selected only where its guard holds, and CONFIGURE is refused only where the block runs. -/
theorem stepNeverStopsButOnReconfiguration : Obligations.StepNeverStopsButOnReconfiguration := by
  intro s hinv
  cases he : s.nextEvent with
  | configure r =>
    have hstep : step s = exec (.configure r) s.advance := by rw [step_eq, nextInstr_configure he]
    have hboot : s.advance.boot = s.boot := nextBoot_configure he
    rw [hstep]
    by_cases hb : s.boot = .running
    · exact .inr ⟨hb, ⟨r, rfl⟩, exec_configure_running (hboot.trans hb) r⟩
    · have hb' : s.advance.boot ≠ .running := by rwa [hboot]
      cases hc : configured r with
      | error what => exact .inl ⟨_, exec_configure_error hb' hc⟩
      | ok c => exact .inl ⟨_, exec_configure_ok hb' hc⟩
  | edge p =>
    refine .inl ?_
    have hheld := heldInReset_of_nextInstr (s := s)
    rw [step_eq]
    rw [nextInstr_edge he] at hheld ⊢
    obtain hi | hi | hi | hi | hi | hi := decodeSelect_cases (selectWord s p) <;> rw [hi] at hheld ⊢
    · exact ⟨_, exec_reset _⟩
    · exact ⟨_, exec_hold _⟩
    · have hc : s.coherent = true := Inv_coherent hinv (hheld (by simp) (by simp))
      exact ⟨_, exec_tick_of_coherent (s := s.advance) hc⟩
    · exact ⟨_, exec_fail _⟩
    · exact ⟨_, exec_emit _⟩
    · exact ⟨_, exec_stall _⟩

end Sys2Proof.Machine

/-!
PROOFS. The sample of a period as a sum (30_encoding.md R68), and blocks side by side (10_state.md R37).
-/

namespace Sys2Proof.Machine

/-! ### Shift-and-OR is the sum (R68) -/

/-- One more group shifts the sum of the groups before it. -/
theorem summedNumber_succ (stride n : Nat) (g : Nat → Nat) :
    summedNumber stride (n + 1) g = (summedNumber stride n g) <<< stride + g n := by
  have hplace : ∀ t ∈ List.range n, g t <<< (stride * (n + 1 - 1 - t)) =
      2 ^ stride * g t <<< (stride * (n - 1 - t)) := fun t ht => by
    have hexp : n + 1 - 1 - t = n - 1 - t + 1 := by
      have := List.mem_range.1 ht
      omega
    rw [hexp, Nat.shiftLeft_eq, Nat.shiftLeft_eq, Nat.mul_succ, Nat.pow_add]
    ring
  rw [summedNumber, summedNumber, List.range_succ, List.map_append, List.sum_append, List.map_congr_left hplace,
    List.sum_map_mul_left, Nat.shiftLeft_eq, Nat.mul_comm]
  simp

/-- While the ticks done fit in a byte no bit is lost: the reduction modulo 256 does nothing and OR adds. -/
theorem packedNumber_eq_summedNumber {stride : Nat} {g : Nat → Nat} (hg : ∀ t, g t < 2 ^ stride) {n : Nat}
    (hn : stride * n ≤ 8) :
    packedNumber stride g n = summedNumber stride n g ∧ packedNumber stride g n < 2 ^ (stride * n) := by
  induction n with
  | zero => exact ⟨rfl, Nat.two_pow_pos _⟩
  | succ n ih =>
    obtain ⟨hsum, hlt⟩ := ih ((Nat.mul_le_mul_left _ n.le_succ).trans hn)
    have hbound := shiftLeft_or_lt hlt (hg n)
    have hbyte : 2 ^ (stride * (n + 1)) ≤ 256 := Nat.pow_le_pow_right two_pos hn
    rw [packedNumber, Nat.mod_eq_of_lt (hbound.trans_le hbyte)]
    refine ⟨?_, hbound⟩
    rw [← Nat.shiftLeft_add_eq_or_of_lt (hg n), hsum, summedNumber_succ]

/-- Settles O20: WF4 bounds each group, and WF5 keeps the groups of a period within a byte. -/
theorem packedPeriodIsTheSum : Obligations.PackedPeriodIsTheSum := by
  intro c hw
  obtain ⟨-, -, -, hfits⟩ := (wellFormed_iff c).1 hw
  refine ⟨groupNumber_lt hw, fun g hg => ?_⟩
  obtain ⟨hsum, -⟩ := packedNumber_eq_summedNumber hg (n := c.nsub) (by rwa [Nat.mul_comm])
  exact hsum

/-! ### A bank of blocks (R37, R162) -/

/-- A step of the bank steps one block that is there, or does nothing. -/
theorem stepAt_next {k : Nat} {bank bank' : List State} (h : stepAt k bank = .next bank') :
    (bank[k]? = none ∧ bank' = bank) ∨
      ∃ s t, bank[k]? = some s ∧ step s = .next t ∧ bank' = bank.set k t := by
  unfold stepAt at h
  split at h
  case h_1 hnone => cases h; exact .inl ⟨hnone, rfl⟩
  case h_2 s hsome =>
    split at h
    case h_1 t hstep => cases h; exact .inr ⟨s, t, hsome, hstep, rfl⟩
    case h_2 | h_3 => cases h

theorem stepAt_of_step {k : Nat} {bank : List State} {s t : State} (hs : bank[k]? = some s) (h : step s = .next t) :
    stepAt k bank = .next (bank.set k t) := by
  simp only [stepAt, hs, h]

/-- Settles O48: the one entry of the list that changes is the block that steps, and its step looks at no other. -/
theorem blocksShareNothing : Obligations.BlocksShareNothing := by
  refine ⟨fun k bank bank' h => ?_, fun k a b a' s ha hb h => ?_⟩
  · obtain ⟨-, rfl⟩ | ⟨s, t, -, -, rfl⟩ := stepAt_next h
    · exact ⟨rfl, fun _ _ => rfl⟩
    · exact ⟨List.length_set, fun m hm => List.getElem?_set_ne hm.symm⟩
  · obtain ⟨hnone, -⟩ | ⟨s', t, hs', ht, rfl⟩ := stepAt_next h
    · simp [hnone] at ha
    · obtain rfl : s = s' := Option.some_inj.1 (ha.symm.trans hs')
      refine ⟨b.set k t, stepAt_of_step hb ht, ?_⟩
      rw [List.getElem?_set_self (List.getElem?_eq_some_iff.1 hb).1,
        List.getElem?_set_self (List.getElem?_eq_some_iff.1 ha).1]

end Sys2Proof.Machine

/-!
PROOFS. The micro-operations of a TICK (40_accumulate.md, 41_decide_pack.md, 42_step_ops.md section 2): each one's
effect in plain numbers, and TICK as their sequence.
-/

namespace Sys2Proof.Machine

/-! ### One micro-operation at a time -/

theorem exec_effphase_of_lt {s : State} {j : Nat} (hc : s.coherent = true) (hj : j < s.cfg.nch) :
    exec (.effphase j) s = .next (s.effOne j) := by
  change execEffphase j s = _
  rw [execEffphase, ifCoherent_true hc, if_pos hj]

theorem exec_decide_of_lt {s : State} {j : Nat} (hc : s.coherent = true) (hj : j < s.cfg.nch) :
    exec (.decide j) s = .next (s.decideOne j) := by
  change execDecide j s = _
  rw [execDecide, ifCoherent_true hc, if_pos hj]

theorem exec_group_of_coherent {s : State} (hc : s.coherent = true) : exec .group s = .next s.groupBits :=
  ifCoherent_true hc _

theorem exec_pack_of_coherent {s : State} (hc : s.coherent = true) : exec .pack s = .next s.packGroup :=
  ifCoherent_true hc _

theorem exec_complete_of_coherent {s : State} (hc : s.coherent = true) : exec .complete s = .next s.completeTick :=
  ifCoherent_true hc _

/-- TICK and its micro-operations refuse a state that has not its configuration's shape (R7). -/
theorem exec_of_not_coherent {s : State} {i : Instr} (hc : s.coherent = false) (hi : i.selectedAs = .tick) :
    exec i s = .refused .illFormedConfiguration := by
  cases i
  case tick | acc | effphase | decide | group | pack | complete => exact ifCoherent_false hc _
  all_goals cases hi

/-- Settles O9: the guard of the index is behind the guard of R7. -/
theorem microOperationsStopByName : Obligations.MicroOperationsStopByName := by
  refine ⟨fun s i hc hi => ?_, fun s j hc hj => ⟨?_, ?_⟩, fun s i => exec_of_not_coherent⟩
  · change execAcc i s = _
    rw [execAcc, ifCoherent_true hc, if_neg (Nat.not_lt.2 hi)]
  · change execEffphase j s = _
    rw [execEffphase, ifCoherent_true hc, if_neg (Nat.not_lt.2 hj)]
  · change execDecide j s = _
    rw [execDecide, ifCoherent_true hc, if_neg (Nat.not_lt.2 hj)]

theorem chanOf_of_getElem? {c : Cfg} {j : Nat} {ch : ChanCfg} (h : c.chans[j]? = some ch) : chanOf c j = ch := by
  simp [chanOf, List.getD_eq_getElem?_getD, h]

/-- Settles O8: the index is in range because the configuration has a channel there. -/
theorem effphaseAddsTheOffsetModulo : Obligations.EffphaseAddsTheOffsetModulo := by
  intro s j c p hc hchan hp
  have hj : j < s.cfg.nch := (List.getElem?_eq_some_iff.1 hchan).1
  have heff : s.effOf c = BitVec.ofNat 32 ((p.toNat + c.delta.toNat) % 2 ^ 32) := by
    rw [State.effOf, readPhase_of_getElem? hp]
    exact accSum_eq_ofNat_mod p c.delta
  rw [exec_effphase_of_lt hc hj, State.effOne, chanOf_of_getElem? hchan, heff]

/-- Settles O13: there is an e_j because the index is in range. -/
theorem decideTakesTheTopHalf : Obligations.DecideTakesTheTopHalf := by
  intro s j e hc he
  obtain ⟨-, -, heff, -⟩ := (coherent_iff s).1 hc
  have hj : j < s.cfg.nch := heff ▸ (List.getElem?_eq_some_iff.1 he).1
  rw [exec_decide_of_lt hc hj, State.decideOne, List.getD_eq_getElem?_getD, he, Option.getD_some, decideBit_eq_decide]

/-- Settles O14: adding 2^31 inverts the most significant bit. -/
theorem halfCycleOffsetComplements : Obligations.HalfCycleOffsetComplements := by
  intro p
  have hp := p.isLt
  have hsum : (effectivePhase p 0x80000000#32).toNat = (p.toNat + 2 ^ 31) % 2 ^ 32 := BitVec.toNat_add _ _
  rw [decideBit_eq_decide, decideBit_eq_decide, hsum, ← decide_not, decide_eq_decide]
  omega

/-- Settles O16: the group is the OR of the placed bits, since a well-formed group fits in a byte. -/
theorem groupComposesTheDecisions : Obligations.GroupComposesTheDecisions := by
  intro s hc
  obtain ⟨hw, -⟩ := (coherent_iff s).1 hc
  have hgroup : groupOf s.cfg.chans s.work.bits = BitVec.ofNat 8 (orOfPlacedBits s.cfg.chans s.work.bits) := by
    rw [← groupOf_wellFormed hw, BitVec.ofNat_toNat, BitVec.setWidth_eq]
  rw [exec_group_of_coherent hc, State.groupBits, hgroup]
  rfl

/-- Settles O18: the packed value is a byte already. -/
theorem packShiftsThenOrs : Obligations.PackShiftsThenOrs := by
  intro s hc
  rw [exec_pack_of_coherent hc, State.packGroup, ← packedIsShiftThenOr, BitVec.ofNat_toNat, BitVec.setWidth_eq]

/-- Settles O19: the two endings of COMPLETE. -/
theorem completeCountsOrHandsOver : Obligations.CompleteCountsOrHandsOver := by
  intro s hc _
  rw [exec_complete_of_coherent hc]
  obtain ⟨hlast, h⟩ | ⟨hnot, h⟩ := completeTick_cases s
  · rw [if_pos hlast, h]
    rfl
  · rw [if_neg hnot, h]

/-! ### TICK as the sequence of its micro-operations (R131) -/

/-- A list whose first k entries have been computed by f, the others as they were. -/
def computed {α : Type} (f : Nat → α) (k : Nat) (l : List α) : List α := (List.range k).map f ++ l.drop k

section
variable {α : Type} {f : Nat → α} {k : Nat} {l : List α}

theorem computed_length (hk : k ≤ l.length) : (computed f k l).length = l.length := by
  simp [computed, hk]

/-- Every entry from the k-th on is as it was. -/
theorem computed_getD (d : α) : (computed f k l).getD k d = l.getD k d := by
  simp [computed, List.getD_eq_getElem?_getD, List.getElem?_append_right]

theorem computed_set (hk : k < l.length) : (computed f k l).set k (f k) = computed f (k + 1) l := by
  have hdrop : (l.drop k).set 0 (f k) = f k :: l.drop (k + 1) := by
    rw [List.drop_eq_getElem_cons hk, List.set_cons_zero]
  rw [computed, List.set_append_right _ _ (by simp), computed, List.range_succ, List.length_map, List.length_range,
    Nat.sub_self, hdrop]
  simp

theorem computed_all : computed f l.length l = (List.range l.length).map f := by
  simp [computed]

end

/-- The state after ACC of the first k accumulators. -/
def State.accUpTo (s : State) (k : Nat) : State :=
  { s with phase := computed (fun i => accSum (s.readPhase i) (ftwOf s.cfg i)) k s.phase }

/-- The state after EFFPHASE and DECIDE of the first k channels. -/
def State.decideUpTo (s : State) (k : Nat) : State :=
  { s with work := { s.work with
      eff := computed (fun j => s.effOf (chanOf s.cfg j)) k s.work.eff
      bits := computed (fun j => decideBit (s.effOf (chanOf s.cfg j))) k s.work.bits } }

section
variable {s : State} {k : Nat}

theorem accUpTo_coherent (hc : s.coherent = true) (hk : k ≤ s.cfg.nacc) : (s.accUpTo k).coherent = true := by
  obtain ⟨hw, hphase, heff, hbits⟩ := (coherent_iff s).1 hc
  exact (coherent_iff _).2 ⟨hw, (computed_length (hphase ▸ hk)).trans hphase, heff, hbits⟩

theorem decideUpTo_coherent (hc : s.coherent = true) (hk : k ≤ s.cfg.nch) : (s.decideUpTo k).coherent = true := by
  obtain ⟨hw, hphase, heff, hbits⟩ := (coherent_iff s).1 hc
  exact (coherent_iff _).2
    ⟨hw, hphase, (computed_length (heff ▸ hk)).trans heff, (computed_length (hbits ▸ hk)).trans hbits⟩

theorem accOne_accUpTo (hc : s.coherent = true) (hk : k < s.cfg.nacc) : (s.accUpTo k).accOne k = s.accUpTo (k + 1) := by
  obtain ⟨-, hphase, -, -⟩ := (coherent_iff s).1 hc
  have hread : (s.accUpTo k).readPhase k = s.readPhase k := computed_getD _
  rw [State.accOne, hread, State.accUpTo, State.accUpTo, ← computed_set (hphase ▸ hk)]

theorem decideOne_effOne_decideUpTo (hc : s.coherent = true) (hk : k < s.cfg.nch) :
    ((s.decideUpTo k).effOne k).decideOne k = s.decideUpTo (k + 1) := by
  obtain ⟨-, -, heff, hbits⟩ := (coherent_iff s).1 hc
  have hset := computed_set (f := fun j => s.effOf (chanOf s.cfg j)) (heff.symm ▸ hk)
  have hset' := computed_set (f := fun j => decideBit (s.effOf (chanOf s.cfg j))) (hbits.symm ▸ hk)
  have hread : (computed (fun j => s.effOf (chanOf s.cfg j)) (k + 1) s.work.eff).getD k 0 =
      s.effOf (chanOf s.cfg k) := by
    simp [computed, List.getD_eq_getElem?_getD, List.range_succ]
  change { s with work := { s.work with
    eff := (computed _ k s.work.eff).set k (s.effOf (chanOf s.cfg k))
    bits := (computed _ k s.work.bits).set k
      (decideBit (((computed _ k s.work.eff).set k (s.effOf (chanOf s.cfg k))).getD k 0)) } } = _
  rw [hset, hread, hset']
  rfl

/-- Once every accumulator has advanced, the phases are those of ACC for every accumulator at once. -/
theorem accUpTo_nacc (hc : s.coherent = true) : s.accUpTo s.cfg.nacc = s.accAll := by
  obtain ⟨-, hphase, -, -⟩ := (coherent_iff s).1 hc
  have hall : computed (fun i => accSum (s.readPhase i) (ftwOf s.cfg i)) s.cfg.nacc s.phase = s.nextPhase := by
    rw [← hphase, computed_all]
    refine List.ext_getElem (by simp [nextPhase_length hphase]) fun i h1 h2 => ?_
    have hp : i < s.phase.length := by simpa using h1
    have ha : i < s.cfg.accs.length := hp.trans_eq hphase
    simp [State.nextPhase, readPhase_of_getElem? (List.getElem?_eq_getElem hp),
      ftwOf_of_getElem? (List.getElem?_eq_getElem ha)]
  rw [State.accUpTo, hall]
  rfl

/-- What is computed from each channel's constants, channel by channel. -/
theorem map_chanOf {β : Type} (c : Cfg) (f : ChanCfg → β) :
    (List.range c.nch).map (fun j => f (chanOf c j)) = c.chans.map f := by
  refine List.ext_getElem (by simp [Cfg.nch]) fun j h1 h2 => ?_
  have hj : j < c.chans.length := by simpa using h2
  simp [chanOf_of_getElem? (List.getElem?_eq_getElem hj)]

theorem decideUpTo_nch (hc : s.coherent = true) : s.decideUpTo s.cfg.nch = s.effAll.decideAll := by
  obtain ⟨-, -, heff, hbits⟩ := (coherent_iff s).1 hc
  have heffs : computed (fun j => s.effOf (chanOf s.cfg j)) s.cfg.nch s.work.eff = s.cfg.chans.map s.effOf := by
    rw [← map_chanOf, ← heff, computed_all]
  have hdecs : computed (fun j => decideBit (s.effOf (chanOf s.cfg j))) s.cfg.nch s.work.bits =
      (s.cfg.chans.map s.effOf).map decideBit := by
    rw [List.map_map, ← map_chanOf, ← hbits, computed_all]
    rfl
  rw [State.decideUpTo, heffs, hdecs]
  rfl

theorem runInstrs_singleton (i : Instr) (s : State) : runInstrs [i] s = exec i s := by
  rw [runInstrs]
  cases exec i s <;> rfl

theorem runInstrs_cons_of_next {i : Instr} {is : List Instr} {s t : State} (h : exec i s = .next t) :
    runInstrs (i :: is) s = runInstrs is t := by
  rw [runInstrs, h, andThen_next]

theorem runInstrs_accs (hc : s.coherent = true) (hk : k ≤ s.cfg.nacc) :
    runInstrs ((List.range k).map Instr.acc) s = .next (s.accUpTo k) := by
  induction k with
  | zero => rfl
  | succ k ih =>
    have hacc : exec (.acc k) (s.accUpTo k) = .next (s.accUpTo (k + 1)) := by
      rw [exec_acc_of_lt (accUpTo_coherent hc (Nat.le_of_lt hk)) hk, accOne_accUpTo hc hk]
    rw [List.range_succ, List.map_append, runInstrs_append, ih (Nat.le_of_lt hk), andThen_next]
    exact runInstrs_cons_of_next hacc

theorem runInstrs_chans (hc : s.coherent = true) (hk : k ≤ s.cfg.nch) :
    runInstrs ((List.range k).flatMap fun j => [.effphase j, .decide j]) s = .next (s.decideUpTo k) := by
  induction k with
  | zero => rfl
  | succ k ih =>
    have hcoh := decideUpTo_coherent hc (Nat.le_of_lt hk)
    have heff := exec_effphase_of_lt hcoh hk
    have hcoh' : ((s.decideUpTo k).effOne k).coherent = true := by
      obtain ⟨hw, hphase, heff, hbits⟩ := (coherent_iff _).1 hcoh
      exact (coherent_iff _).2 ⟨hw, hphase, by simpa using heff, hbits⟩
    have hdec : exec (.decide k) ((s.decideUpTo k).effOne k) = .next (s.decideUpTo (k + 1)) := by
      rw [exec_decide_of_lt hcoh' hk, decideOne_effOne_decideUpTo hc hk]
    rw [List.range_succ, List.flatMap_append, runInstrs_append, ih (Nat.le_of_lt hk), andThen_next]
    exact (runInstrs_cons_of_next heff).trans (runInstrs_cons_of_next hdec)

/-- GROUP, PACK and COMPLETE find the shape that the tick began with. -/
theorem runInstrs_group_pack_complete (hc : s.coherent = true) :
    runInstrs [.group, .pack, .complete] s = .next s.groupBits.packGroup.completeTick := by
  have hc1 : s.groupBits.coherent = true := hc
  have hc2 : s.groupBits.packGroup.coherent = true := hc
  rw [runInstrs_cons_of_next (exec_group_of_coherent hc), runInstrs_cons_of_next (exec_pack_of_coherent hc1),
    runInstrs_singleton, exec_complete_of_coherent hc2]

theorem runInstrs_microProgram (hc : s.coherent = true) : runInstrs (microProgram s.cfg) s = .next s.ticked := by
  have hc1 : s.accAll.coherent = true := by
    rw [← accUpTo_nacc hc]
    exact accUpTo_coherent hc le_rfl
  have hc2 : s.accAll.effAll.decideAll.coherent = true := by
    rw [← decideUpTo_nch hc1]
    exact decideUpTo_coherent hc1 le_rfl
  have hchans := runInstrs_chans hc1 le_rfl
  rw [decideUpTo_nch hc1] at hchans
  rw [microProgram, runInstrs_append, runInstrs_append, runInstrs_accs hc le_rfl, accUpTo_nacc hc, andThen_next]
  change Result.andThen (runInstrs ((List.range s.accAll.cfg.nch).flatMap _) s.accAll) _ = _
  rw [hchans, andThen_next]
  exact runInstrs_group_pack_complete hc2

/-- Each row of the micro-program carries TICK's pattern (R74), and there is at least one. -/
theorem microProgram_selectedAs (c : Cfg) : ∃ i is, microProgram c = i :: is ∧ i.selectedAs = .tick := by
  rw [microProgram]
  cases c.nacc with
  | succ n => exact ⟨.acc 0, _, by rw [List.range_succ_eq_map]; rfl, rfl⟩
  | zero =>
    cases c.nch with
    | succ n => exact ⟨.effphase 0, _, by rw [List.range_succ_eq_map]; rfl, rfl⟩
    | zero => exact ⟨.group, _, rfl, rfl⟩

end

/-- Settles O22: from a coherent state the rows compute TICK's registers one by one; from any other the first refuses,
as TICK does. -/
theorem microProgramIsTick : Obligations.MicroProgramIsTick := by
  intro s
  cases hc : s.coherent with
  | true => rw [runInstrs_microProgram hc, exec_tick_of_coherent hc]
  | false =>
    obtain ⟨i, is, hprog, hi⟩ := microProgram_selectedAs s.cfg
    rw [hprog, runInstrs, exec_of_not_coherent hc hi, exec_of_not_coherent hc rfl, andThen_refused]

end Sys2Proof.Machine

/-!
PROOFS. Encodings (30_encoding.md R61 to R74): the row by row law of the encoder put together for all rows, and the
words and bytes that are read back by it.
-/

namespace Sys2Proof.Laws.Encoding

/-- The law of the encoder for every row of the table. -/
theorem statement_all (i : Instr) : Statement i := by
  cases i with
  | reset => exact reset
  | hold => exact hold
  | tick => exact tick
  | fail => exact fail
  | emit => exact emit
  | stall => exact stall
  | acc i => exact acc i
  | effphase j => exact effphase j
  | decide j => exact decide j
  | group => exact group
  | pack => exact pack
  | complete => exact complete
  | configure req => exact configure req
  | phaseWord p => exact phaseWord p
  | ftwWord f => exact ftwWord f
  | deltaWord d => exact deltaWord d
  | groupB m r => exact groupB m r
  | sampleA r => exact sampleA r
  | sampleB m1 r1 m2 r2 => exact sampleB m1 r1 m2 r2
  | sampleBStride4 m1 r1 m2 r2 => exact sampleBStride4 m1 r1 m2 r2

end Sys2Proof.Laws.Encoding

namespace Sys2Proof.Machine

/-! ### Reading back what was encoded -/

theorem decodeAs_encode {i : Instr} (h : i.format ≠ .none) : decodeAs i.format (encode i).word = .ok i.selectedAs := by
  obtain ⟨-, hdec⟩ := Laws.Encoding.statement_all i
  rw [hdec]
  split
  · contradiction
  · rfl

theorem encode_width_of_sel {i : Instr} (h : i.format = .sel) : (encode i).width = 5 := by
  cases i
  case configure | phaseWord | ftwWord | deltaWord | groupB | sampleA | sampleB | sampleBStride4 => cases h
  all_goals rfl

theorem selectedAs_of_not_sel {i : Instr} (h : i.format ≠ .sel) : i.selectedAs = i := by
  cases i
  case acc | effphase | decide | group | pack | complete => exact absurd rfl h
  all_goals rfl

theorem decodeBytes_of_decodeAs {b : Byte} {i : Instr} (h : decodeAs .sel b.toNat = .ok i) (rest : List Byte) :
    decodeBytes (b :: rest) = .ok (i, rest) := by
  rw [decodeBytes, h]

/-- A select word is one byte, its three upper bits zero (log entry 12). -/
theorem decodeBytes_encodeBytes {i : Instr} (h : i.format = .sel) (rest : List Byte) :
    decodeBytes (encodeBytes i ++ rest) = .ok (i.selectedAs, rest) := by
  obtain ⟨hfits, -⟩ := Laws.Encoding.statement_all i
  rw [encode_width_of_sel h] at hfits
  have hbyte : (BitVec.ofNat 8 (encode i).word).toNat = (encode i).word :=
    Nat.mod_eq_of_lt (hfits.trans (by decide))
  have hdec := decodeAs_encode (i := i) (by simp [h])
  rw [h, ← hbyte] at hdec
  exact decodeBytes_of_decodeAs hdec rest

/-- Settles O3: each row's word is read back as the row that its pattern stands for, which is the row itself. -/
theorem decodeOfEncodeIsTheRow : Obligations.DecodeOfEncodeIsTheRow := by
  refine ⟨fun i rest hsel hself => ?_, fun i hnone hsel => ?_⟩
  · rw [decodeBytes_encodeBytes hsel, hself]
  · rw [decodeAs_encode hnone, selectedAs_of_not_sel hsel]

/-- Settles O1: by evaluation over the 32 select words. -/
theorem selectWordPicksExactlyOneStep : Obligations.SelectWordPicksExactlyOneStep := by
  unfold Obligations.SelectWordPicksExactlyOneStep
  decide

/-- Settles O2: by evaluation of the decoder on the words written out. -/
theorem writtenOutWordsDecode : Obligations.WrittenOutWordsDecode := by
  unfold Obligations.WrittenOutWordsDecode
  decide

/-- Settles O55: the rows whose word is neither a select word nor absent are the seven layouts. -/
theorem dataFormatsAreRefused : Obligations.DataFormatsAreRefused := by
  intro i s hnone hsel
  cases i
  case phaseWord | ftwWord | deltaWord | groupB | sampleA | sampleB | sampleBStride4 => rfl
  case configure => exact absurd rfl hnone
  all_goals exact absurd rfl hsel

end Sys2Proof.Machine

/-!
PROOFS. Halting and reset (42_step_ops.md R135, R136, R139; 60_exceptions.md R153).
-/

namespace Sys2Proof.Machine

/-- Settles O27: raising an IOError sets HALT and nothing else. -/
theorem failHaltsAndAppendsNothing : Obligations.FailHaltsAndAppendsNothing :=
  fun s _ _ => exec_fail s

/-- Settles O28: HOLD is the identity, and HALT alone decides the two pins. -/
theorem holdChangesNothing : Obligations.HoldChangesNothing := by
  intro s hhalt
  refine ⟨exec_hold s, ?_⟩
  simp [outPins, hhalt]

/-- Settles O29: RESET field by field; the start-up condition by its four values. -/
theorem resetGivesTheStatedValues : Obligations.ResetGivesTheStatedValues := by
  intro s
  refine ⟨s.resetAll, exec_reset s, rfl, rfl, rfl, rfl, rfl, rfl, rfl, rfl, rfl, rfl, rfl, ?_⟩
  rw [resetAll_boot]
  cases s.boot with
  | refused what => exact .inl ⟨what, rfl, rfl⟩
  | configured | inReset | running => exact .inr ⟨nofun, rfl⟩

/-- Settles O30: the fields of the state after reset, read off. -/
theorem resetStateValues : Obligations.ResetStateValues :=
  ⟨rfl, rfl, rfl, rfl, rfl, rfl, rfl, rfl⟩

theorem errorOf_of_halt {s : State} (hb : ∀ what, s.boot ≠ .refused what) (hhalt : s.halt = true) :
    errorOf s = some .ioError := by
  rw [errorOf]
  cases h : s.boot with
  | refused what => exact absurd h (hb what)
  | configured | inReset | running => simp [hhalt]

/-- Settles O31: the error is read off the start-up condition first and HALT after it. -/
theorem errorNumbers : Obligations.ErrorNumbers := by
  refine ⟨rfl, fun s t hb h => ?_, fun s t what h => ?_⟩
  · rw [exec_fail] at h
    cases h
    have herr : errorOf { s with halt := true } = some .ioError := errorOf_of_halt hb rfl
    exact ⟨by rw [herr]; rfl, rfl, by simp [outPins]⟩
  · rw [h]
    rfl

end Sys2Proof.Machine
